-- ==== Sys2Proof/Config.lean ====
section
/-! DEFINITION. What the volume fixes once for every part (Tables 0-2, 0-3, 1-1, 1-3, 2-1), and the
model's free values: constants without a body, about which nothing can be proved. -/

namespace Sys2Proof

/-- The two raster standards of Table 0-2. -/
inductive Standard | sys30 | sys25
deriving DecidableEq, Repr

/-- The identity of a field within its frame (spec 0.5). -/
inductive FieldId | one | two
deriving DecidableEq, Repr

/-- The identity that alternates with this one. -/
def FieldId.other : FieldId → FieldId
  | .one => .two
  | .two => .one

namespace Config

/-- Line length in luma sample periods (Table 1-1). -/
def lineLen : Standard → Nat
  | .sys30 => 858
  | .sys25 => 864

/-- Lines of a field (Table 1-1). -/
def fieldLines : Standard → FieldId → Nat
  | .sys30, .one => 263
  | .sys30, .two => 262
  | .sys25, .one => 312
  | .sys25, .two => 313

/-- Length of a field in luma sample periods. -/
def fieldLen (std : Standard) (f : FieldId) : Nat := fieldLines std f * lineLen std

/-- First active line of an output field (Table 1-3). -/
def firstActive : Standard → FieldId → Nat
  | .sys30, .one => 21
  | .sys30, .two => 20
  | .sys25, .one => 25
  | .sys25, .two => 26

/-- Active lines of a field (Table 0-2). -/
def activeLines : Standard → Nat
  | .sys30 => 243
  | .sys25 => 288

/-- Frame height H (Table 0-2). -/
def frameHeight : Standard → Nat
  | .sys30 => 486
  | .sys25 => 576

/-- Label rate R (Table 0-2, R54). -/
def labelRate : Standard → Nat
  | .sys30 => 30
  | .sys25 => 25

/-- The field count is a 24-bit count (R4). -/
def countModulus : Nat := 16777216

/-- Range and default of the window line (Table 2-1): lowest, highest, default. -/
def windowLine : Standard → Nat × Nat × Nat
  | .sys30 => (10, 17, 12)
  | .sys25 => (7, 15, 8)

/-- Range and default of the status line (Table 2-1): lowest, highest, default. -/
def statusLine : Standard → Nat × Nat × Nat
  | .sys30 => (10, 11, 10)
  | .sys25 => (6, 12, 7)

/-- FREE VALUE (log entry 3): the position that R142 records where the TCU converts nothing of a reply to a record frame,
since its label has no count (R55) or R64 discards the measurement. Applied to the label's five bytes. -/
opaque unconvertedPosition : List Nat → Nat

end Config

end Sys2Proof
end

