-- ==== Sys2Proof/Word.lean ====
section
/-! DEFINITION. The plainest data of the model: bytes and 10-bit words as the wire formats number their
bits (spec 2.11.1), fixed-size tables, and whole-byte number forms. -/

namespace Sys2Proof

/-- A byte of a payload, a frame or a record. -/
abbrev Byte := BitVec 8

/-- A 10-bit word of one luma sample (spec 0.4, 2.11.1). -/
abbrev Word10 := BitVec 10

/-- A deck, numbered after the deck line that reaches it (spec 0.6.3). -/
abbrev DeckNo := Fin 4

/-- A slot of the edit list (spec 0.6.3). -/
abbrev SlotNo := Fin 64

/-- A table of exactly `n` like things (four decks, 64 slots, sixteen patterns). -/
structure Table (α : Type) (n : Nat) where
  cells : List α
  size_eq : cells.length = n
deriving DecidableEq, Repr

/-- The entry at `i`. -/
def Table.get {α : Type} {n : Nat} (t : Table α n) (i : Fin n) : α :=
  t.cells[i.val]'(by have := t.size_eq; omega)

/-- The table with entry `i` replaced. -/
def Table.set {α : Type} {n : Nat} (t : Table α n) (i : Fin n) (a : α) : Table α n :=
  ⟨t.cells.set i.val a, by simp [t.size_eq]⟩

/-- The table with entry `i` changed by `f`. -/
def Table.modify {α : Type} {n : Nat} (t : Table α n) (i : Fin n) (f : α → α) : Table α n :=
  t.set i (f (t.get i))

/-- The table with every entry changed by `f`. -/
def Table.map {α β : Type} {n : Nat} (f : α → β) (t : Table α n) : Table β n :=
  ⟨t.cells.map f, by simp [t.size_eq]⟩

/-- The table with the same entry everywhere. -/
def Table.replicate {α : Type} (n : Nat) (a : α) : Table α n :=
  ⟨List.replicate n a, by simp⟩

/-- The byte that holds a number modulo 256. -/
def byteOf (v : Nat) : Byte := BitVec.ofNat 8 v

/-- A number in `n` whole bytes, most significant byte first, two's complement where negative
(spec 2.11, R37). -/
def numBytes (n : Nat) (v : Int) : List Byte :=
  (List.range n).map (fun i => byteOf (((v / (256 ^ (n - 1 - i) : Nat)) % 256).toNat))

/-- The unsigned number that bytes hold, most significant byte first. -/
def numOf (bs : List Byte) : Nat := bs.foldl (fun a b => a * 256 + b.toNat) 0

/-- One byte for a truth value. -/
def flagByte (b : Bool) : Byte := if b then 1 else 0

end Sys2Proof
end

