-- ==== Sys2Proof/Syntax.lean ====
section
/-! DEFINITION. The commands and events of the 420, whole: one constructor of `Instr` for every row of
spec/opcode_table.json, with the operands the row's rule gives it. A host command carries first the
offset of its packet's line in the control window (R27, item 3), then its operands AS THE PACKET
CARRIES THEM, numbers and codes not yet checked, so that every refusal the owner's rule gives can be
shown. An event carries what the 420 observes from outside at that event. -/

namespace Sys2Proof

/-- The three source inputs. -/
inductive Input | a | b | c
deriving DecidableEq, Repr

/-- The number of an input's SIU in a table of three. -/
def Input.idx : Input → Fin 3
  | .a => 0
  | .b => 1
  | .c => 2

/-- A REF or input field as it was received, from its opening reference to the one that closes it
(R1, R41): the identity it opened with, the common length of its lines in luma sample periods, how
many lines it held, and the identity of the reference that closes it. -/
structure FieldObs where
  id : FieldId
  lineLen : Nat
  lines : Nat
  closing : FieldId
deriving DecidableEq, Repr

/-- The point at which a field can no longer be well-formed (R1, R41). -/
inductive BadCause | lineLength | earlyReference | identity | overrun
deriving DecidableEq, Repr

/-- One VITC line as an input field carried it (R49): not reached by the field, or its 90 cells, cell c
in bit c. -/
inductive VitcLine
  | notReached
  | cells (c : BitVec 90)
deriving DecidableEq, Repr

/-- The five bytes of a timecode label as received (Table 2-11). -/
structure RawLabel where
  hh : Nat
  mm : Nat
  ss : Nat
  ff : Nat
  flags : Nat
deriving DecidableEq, Repr

/-- "Value or named alternative" (R37): the choice byte, then the value field. -/
structure LabelChoice where
  alt : Nat
  label : RawLabel
deriving DecidableEq, Repr

/-- "Value or named alternative" of a number (R37). -/
structure NumberChoice where
  alt : Nat
  value : Nat
deriving DecidableEq, Repr

/-- One entry of EVENT_LOAD's source list (Table 8-2, operands 24 to 27). -/
structure SourceOperand where
  deck : Nat
  play : RawLabel
deriving DecidableEq, Repr

/-- The key part of EVENT_LOAD (Table 8-2, operands 16 to 23) behind its presence byte. -/
structure KeyOperands where
  presence : Nat
  fillDeck : Nat
  fillIn : RawLabel
  keyInput : Nat
  clip : Nat
  gain : Nat
  invert : Nat
  onOffset : Nat
  offOffset : Nat
deriving DecidableEq, Repr

/-- EVENT_LOAD's operands in the order of Table 8-2. -/
structure EventOperands where
  slot : Nat
  kind : Nat
  recordIn : LabelChoice
  length : NumberChoice
  transition : Nat
  start : Nat
  duration : Nat
  pattern : Nat
  curve : Nat
  reverse : Nat
  softness : Nat
  preroll : Nat
  postroll : Nat
  hold : Nat
  tracks : Nat
  key : KeyOperands
  sourceCount : Nat
  entry1 : SourceOperand
  entry2 : SourceOperand
deriving DecidableEq, Repr

/-- What a deck's transport reports (codes of Table 2-10). -/
inductive Transport
  | stopped | still | play | variableSpeed | fastFwd | rewind | cueing | record | noTape
deriving DecidableEq, Repr

/-- The timecode source a deck names (Table 2-13). -/
inductive TcSource | ltc | ctl
deriving DecidableEq, Repr

/-- The data of a good deck reply (Table 2-13). -/
structure DeckReply where
  refused : Bool
  reason : Nat
  transport : Transport
  servo : Bool
  inhibit : Bool
  isLocal : Bool
  speed : Int
  label : RawLabel
  source : TcSource
deriving DecidableEq, Repr

/-- What waits for the advance of one position record: the EDS's work on the recorder's advance (R141 to
R144), the captures held for the deck (R74), and a held chase computation (R108). -/
inductive Reaction
  | sequencer
  | captures
  | chase (d : DeckNo)
deriving DecidableEq, Repr

/-- One piece of the work that the blocks do at a field start. The volume lets several of them be taken
in either order (R74, R108, R131, R152, R174); FIELD_START's second operand names the ones taken early. -/
inductive FieldWork
  | advance (d : DeckNo) (first : List Reaction)   -- the TCU advances one record (R62)
  | cueTimers              -- R136
  | rollPlays              -- R140
  | postroll               -- R145
  | guard                  -- R149
  | autoTake               -- R171
  | gpi (g : Fin 4)        -- R173
deriving DecidableEq, Repr

/-- The piece of work without the order of what follows it. -/
def FieldWork.piece : FieldWork → FieldWork
  | .advance d _ => .advance d []
  | w => w

/-- The commands and events: one constructor per row of spec/opcode_table.json. -/
inductive Instr
  -- resets and reference timing
  | powerOn
  | resetLine
  | fieldStart (pins : BitVec 4) (order : List FieldWork)
  | refFieldWellFormed (obs : FieldObs) (time : Nat)
  | refFieldBad (cause : BadCause)
  | silenceJudgement
  | refFieldOpened (id : FieldId)
  -- packets, replies and notices
  | packetBadFormat (off kind : Nat)
  | packetUnknownKind (off kind : Nat)
  | packetWrongLength (off kind : Nat)
  | statusBlockWrite
  | replyRecordWrite
  | ctrlLines (off w30 s30 w25 s25 : Nat)
  | clearNotices (off mask : Nat)
  | noticeMask (off mask : Nat)
  | resetPartFull (off scope : Nat)
  | resetPartFullApply
  | resetPartEngine (off : Nat)
  -- source inputs
  | inputConfig (off input first30 second30 first25 second25 : Nat)
  | substPolicy (off input policy : Nat)
  | inputFieldReference (input : Input) (id : FieldId) (time : Nat)
  | inputFieldWellFormed (input : Input) (obs : FieldObs)
  | inputFieldBad (input : Input) (cause : BadCause)
  | inputSilenceBad (input : Input)
  | inputNoSignal (input : Input)
  | storeSlip (input : Input) (line : Nat)
  | vitcReading (input : Input) (first second : VitcLine)
  -- timecode and tape position
  | tcConfig (off df pref0 pref1 pref2 pref3 : Nat)
  | positionStale (deck : DeckNo)
  | markPush (off deck : Nat) (position : LabelChoice)
  | markPop (off : Nat)
  | markClear (off : Nat)
  -- the deck table
  | deckAssign (off deck role input : Nat)
  | deckParams (off deck poll slotLine playLead recordLead tolerance timeout : Nat)
  | deckRead (off deck : Nat)
  -- deck lines
  | deckDirect (off deck command : Nat) (speed : Int) (cue : RawLabel)
  | slotLine (deck : DeckNo)
  | frameSendEnd (deck : DeckNo)
  | deckReplyGood (deck : DeckNo) (reply : DeckReply)
  | deckReplyBad (deck : DeckNo)
  | deckTimeout (deck : DeckNo)
  -- chase
  | chaseParams (off gain slew window lockRun unlock sync : Nat)
  -- the edit list
  | eventLoad (off : Nat) (ops : EventOperands)
  | eventClear (off slot : Nat)
  | eventRead (off slot : Nat)
  | eventArm (off slot : Nat)
  -- running an edit
  | listRun (off slot : Nat)
  | cueTimeout (deck : DeckNo)
  | release (off : Nat)
  | rollPlayDue (deck : DeckNo)
  | endOpen (off : Nat)
  | postrollEnd
  | abort (off : Nat)
  | listStop (off : Nat)
  | guardTrip
  | guardLimit (off limit : Nat)
  -- mix/effects
  | activeSetTake
  | xptSet (off bg1 bg2 pvw : Nat)
  | keyParams (off keyOn fill keyInput clip gain invert : Nat)
  | autoTake (off kind duration pattern curve softness reverse : Nat)
  | autoTakeEnd
  | patternLoad (off pattern shape cellsX cellsY reverse : Nat)
  | curveLoad (off curve : Nat) (points : List Nat)
  -- console
  | gpiAcceptedEdge (input : Fin 4)
  | gpiConfig (off input role edge debounce markDeck : Nat)
  | tallyConfig (off output role : Nat)
deriving DecidableEq, Repr

end Sys2Proof
end

