-- ==== Sys2Proof/Machine/State.lean ====
section
/-! DEFINITION. The state of the 420, whole, as plain data: `Part` is every register, list, counter,
mode and output that the volume gives the part (INVENTORY.md lists each with its rule), `State` adds
the queue of waiting commands. `State.reset` is the machine right after power-on (R33 and the reset
value that each chapter gives for its own state). -/

namespace Sys2Proof.Machine

open Sys2Proof

/-! ## Why a command could stop -/

/-- Why the machine stops. The volume gives every command and event an effect, so there is no fault:
the type has no constructor. -/
inductive Fault
deriving DecidableEq, Repr

/-- Why a command has no meaning. -/
inductive Refusal
  /-- Raised by `exec` alone, for a row that has no meaning yet. Safe: nothing happens. -/
  | notModelled (mnemonic : String)
deriving DecidableEq, Repr

/-! ## Reference Timing Unit (chapter 1) -/

/-- Lock state (section 1.2). -/
inductive Lock | noRef | acquire | locked | freewheel
deriving DecidableEq, Repr

/-- A field that has ended, whose last output lines are still being sent (R15): its length in luma sample
periods, its identity, and the standard it was sent in. -/
structure EndedField where
  len : Nat
  id : FieldId
  std : Standard
deriving DecidableEq, Repr

/-- The RTU timing of R3, R9: a counter of luma sample periods. `elapsed` counts from the start of the
field in progress; `placed` is the count at which a snap placed the timing in step with REF
(0 where none did), so that `elapsed - placed` counts through the field `counted`. -/
structure Timing where
  elapsed : Nat
  placed : Nat
  /-- identity of the field the timing counts through -/
  counted : FieldId
  /-- standard the output field in progress is sent in (R9, R14) -/
  sentStd : Standard
  /-- the field in progress was opened by a field start event (R5) -/
  opened : Bool
  /-- the field before, where this one was opened by a field start other than that of a reset -/
  before : Option EndedField
  /-- a field start of this identity and standard fell due at the very instant at which a snap placed the timing
  elsewhere, and has not yet been declared (R8, R9; log entry 37) -/
  owes : Option (FieldId × Standard)
deriving DecidableEq, Repr

structure Rtu where
  lock : Lock
  std : Standard
  candidate : Option Standard
  run : Nat
  miss : Nat
  fieldId : FieldId
  fieldCount : Nat
  timing : Timing
  /-- identity of the REF field in progress, none before the first field timing reference after a break -/
  refField : Option FieldId
  /-- luma sample periods since the last line timing reference on REF or the end of the reset, none once the span of R2
  that they make has been judged -/
  quiet : Option Nat
  /-- luma sample periods since the last silence judgement, none where no field timing reference is missing since one
  (R2) -/
  silence : Option Nat
deriving DecidableEq, Repr

/-! ## Packet Unit (chapter 2) -/

/-- The notices of Table 2-3, in bit order. -/
inductive Notice
  | refLost | refJump | standardChange | packetError | inputWindow | inputFormat
  | deckTimeout | deckAbsent | deckLocal | deckRefused
  | markTaken | markOverflow | markRefused
  | holdWaiting | eventDone | eventFailed | listEnd | guardTrip
deriving DecidableEq, Repr

/-- Result codes of Table 2-2. -/
inductive Result | accepted | clamped | badFormat | unknown | badValue | busy | state | noMark
deriving DecidableEq, Repr

inductive ResetCause | powerOn | resetLine | command
deriving DecidableEq, Repr

/-- A reply record (R27): the items in order, the answered kind and the kind payload in bytes. -/
structure Reply where
  kind : Nat
  result : Result
  offset : Nat
  normalised : Bool
  notRestored : Bool
  borrow : Bool
  wrap : Bool
  operand : Nat
  clamped : List Nat
  payload : List Byte
deriving DecidableEq, Repr

/-- Window line and status line of one standard (Table 2-1). -/
structure LineSettings where
  window : Nat
  status : Nat
deriving DecidableEq, Repr

/-- The items that R4 and R105 report in a status block and to which Tables 2-6 and 2-7 give no byte: the field identity,
and the lock counter and speed demand of each deck (log entries 40 and 43). -/
structure StatusBeside where
  identity : FieldId
  lockCounts : Table Nat 4
  speeds : Table Int 4
deriving DecidableEq, Repr

structure Pku where
  lines30 : LineSettings
  lines25 : LineSettings
  /-- the settings that govern the field in progress (R18, R26) -/
  inUse : LineSettings
  /-- the field in progress counts as opened in LOCKED (R18) -/
  openedLocked : Bool
  notices : BitVec 18
  mask : BitVec 18
  cause : ResetCause
  errors : Nat
  building : List Reply
  toWrite : List Reply
  /-- a RESET_PART FULL waits for the next field start (R35) -/
  fullPending : Bool
  /-- luma words last written on output line S (R29, R38) -/
  statusWords : List Word10
  /-- what the block last written reports beside its 83 bytes; none before the first (R4, R105) -/
  statusBeside : Option StatusBeside
  /-- luma words last written on output lines S + 1 to S + 8; an empty line carries no record (R26) -/
  replyWords : List (List Word10)
deriving DecidableEq, Repr

/-! ## Source Input Units (chapter 3) -/

inductive SiuState | noSignal | formatError | outOfWindow | inWindow
deriving DecidableEq, Repr

inductive Policy | black | bars
deriving DecidableEq, Repr

/-- The digits of a timecode label and its field (spec 0.6.1). -/
structure Label where
  hh : Nat
  mm : Nat
  ss : Nat
  ff : Nat
  field : FieldId
deriving DecidableEq, Repr

/-- A VITC reading (R40, R50): label, drop-frame indication, matched field. -/
structure Reading where
  label : Label
  drop : Bool
  field : Nat
deriving DecidableEq, Repr

/-- One line held in the elastic store (section 3.4), clamped (R48). -/
structure StoredLine where
  field : Option Nat
  line : Nat
  luma : List Nat
  cb : List Nat
  cr : List Nat
deriving DecidableEq, Repr

/-- What an SIU found in its store for a line of the output field of this count, when it looked at the beginning of that
line; none is a store slip (R47). -/
structure LookUp where
  field : Nat
  line : Nat
  found : Option StoredLine
deriving DecidableEq, Repr

/-- VITC line settings of an SIU (R40, R52). -/
structure VitcLines where
  first30 : Nat
  second30 : Nat
  first25 : Nat
  second25 : Nat
deriving DecidableEq, Repr

structure Siu where
  state : SiuState
  clean : Nat
  offset : Int
  matchedField : Option Nat
  store : List StoredLine
  /-- the last look-up in the store, which holds for its whole output line (R47) -/
  lookedUp : Option LookUp
  vitc : VitcLines
  /-- the first and second VITC line of the input field in progress (R52) -/
  vitcInUse : Nat × Nat
  reading : Option Reading
  /-- the reading of the input field in progress is settled: formed, or not to be formed since the field was judged
  bad (R49, R50) -/
  formed : Bool
  /-- what the first and the second VITC line of the input field in progress carried so far (R49) -/
  vitcFirst : VitcLine
  vitcSecond : VitcLine
  /-- identity of the input field in progress, and the number of its line that is arriving, 0 before line 1 (R46) -/
  fieldId : FieldId
  line : Nat
  /-- luma sample periods since the last line timing reference of the input, or the end of the reset (R42) -/
  quiet : Nat
  policy : Policy
  /-- the input field in progress is to be judged (R40, R41, R45) -/
  judging : Bool
  /-- the input field that the last reference closed is to be judged -/
  closedJudging : Bool
deriving DecidableEq, Repr

/-! ## Timecode Unit (chapter 4) -/

inductive PosSource | vitc | deck | estimate
deriving DecidableEq, Repr

inductive Preference | vitcFirst | deckFirst
deriving DecidableEq, Repr

/-- The position record of R60. -/
structure PosRec where
  position : Nat
  valid : Bool
  source : PosSource
  age : Nat
  acc : Nat
  motion : Int
  vitcAge : Nat
  deckAge : Nat
  tcSource : TcSource
  preference : Preference
deriving DecidableEq, Repr

inductive Origin | g (input : Fin 4) | host
deriving DecidableEq, Repr

structure Mark where
  position : Nat
  deck : DeckNo
  origin : Origin
deriving DecidableEq, Repr

structure Tcu where
  dfMode : Bool
  settled : Bool
  /-- the mark stack, top first (R71) -/
  marks : List Mark
deriving DecidableEq, Repr

/-! ## The deck table (chapter 5) and the ports (chapter 6) -/

inductive Role | noRole | player | recorder
deriving DecidableEq, Repr

inductive LineState | unknown | online | inLocal | absent
deriving DecidableEq, Repr

/-- Wanted transport (section 5.1); the cue is a frame count. -/
inductive Want | stop | still | play | cueTo (frame : Nat)
deriving DecidableEq, Repr

/-- Last-sent transport (section 5.1). -/
inductive Sent | unknown | stop | still | play | fastFwd | rewind | eject | cueTo (frame : Nat)
deriving DecidableEq, Repr

/-- The commands DECK_DIRECT offers, in the order of R104. -/
inductive DirectCommand
  | play | stop | still | fastFwd | rewind | variableSpeed | cueTo | eject | recordOff
deriving DecidableEq, Repr

/-- A pending direct command with its speed (VARIABLE) or its normalised label (CUE_TO). -/
structure Direct where
  command : DirectCommand
  speed : Int
  cue : Option Label
deriving DecidableEq, Repr

/-- A frame to a deck (Table 2-12). A CUE_TO keeps its cue frame count beside the label bytes it sends. -/
inductive Frame
  | poll | play | stop | still | fastFwd | rewind
  | variableSpeed (speed : Int)
  | cueTo (frame : Nat) (label : List Byte)
  | recordOn (tracks : BitVec 4)
  | recordOff | eject
deriving DecidableEq, Repr

/-- The last reply of a deck (Table 5-1): the code of the frame answered, result, reason. -/
structure LastReply where
  code : Nat
  refused : Bool
  reason : Nat
deriving DecidableEq, Repr

/-- The six deck parameters of R84. -/
structure DeckParams where
  poll : Nat
  slotLine : Nat
  playLead : Nat
  recordLead : Nat
  tolerance : Nat
  timeout : Nat
deriving DecidableEq, Repr

inductive ChaseState | off | pullIn | locked | lost
deriving DecidableEq, Repr

/-- The chase items of the deck record (Table 5-1). -/
structure ChaseItems where
  state : ChaseState
  error : Int
  lockCount : Nat
  speed : Int
deriving DecidableEq, Repr

/-- One deck record (Table 5-1). -/
structure Deck where
  role : Role
  input : Option Input
  line : LineState
  transport : Transport
  servo : Bool
  inhibit : Bool
  isLocal : Bool
  speed : Int
  timeouts : Nat
  lastReply : Option LastReply
  want : Want
  wantRecord : Bool
  wantSpeed : Int
  direct : Option Direct
  sent : Sent
  /-- last-sent record level; none is UNKNOWN -/
  sentRecord : Option Bool
  /-- last-sent speed; none is UNKNOWN -/
  sentSpeed : Option Int
  params : DeckParams
  position : PosRec
  chase : ChaseItems
deriving DecidableEq, Repr

/-- A byte received on a deck line: its data, and whether parity and stop bit were good (R89). -/
structure RxByte where
  data : Byte
  good : Bool
deriving DecidableEq, Repr

/-- A transaction in flight (R92). -/
structure Flight where
  frame : Frame
  field : Nat
  bytes : List RxByte
deriving DecidableEq, Repr

/-- The port state of R90, with the direction output of R89 and the slot line that governs the field in
progress (R84). -/
structure Port where
  flight : Option Flight
  prescaler : Nat
  directHold : Bool
  tracks : BitVec 4
  /-- the frames whose bytes the transmit line still has to send, the first of them on the line now; the direction
  output is at send while there is one (R89) -/
  sending : List Frame
  /-- luma sample periods since the first start bit of the frame on the line (R89) -/
  sent : Nat
  /-- the bits so far of the byte that is coming in, its start bit past; none until a start bit falls (R89) -/
  incoming : Option (List Bool)
  slotLine : Nat
deriving DecidableEq, Repr

/-! ## Chase Unit (chapter 7) -/

/-- The chase parameters of Table 7-2. -/
structure ChaseParams where
  gain : Nat
  slew : Nat
  window : Nat
  lockRun : Nat
  unlock : Nat
  sync : Nat
deriving DecidableEq, Repr

/-- What the CHU keeps of a deck beside its chase items (Table 7-1). -/
structure ChaseOwn where
  playerIn : Nat
  recorderIn : Nat
  pending : Bool
deriving DecidableEq, Repr

structure Chu where
  params : ChaseParams
  syncWatch : Bool
  own : Table ChaseOwn 4
deriving DecidableEq, Repr

/-! ## Edit list and Edit Sequencer (chapters 8, 9) -/

inductive SlotState | empty | loaded | armed | active | done | failed | aborted
deriving DecidableEq, Repr

inductive EventKind | insert | preview
deriving DecidableEq, Repr

inductive Transition | cut | mix | wipe
deriving DecidableEq, Repr

inductive Hold | noHold | beforeRoll
deriving DecidableEq, Repr

/-- A label as a slot stores it, with what was true when it was stored (R25, R39, R120). -/
structure StoredLabel where
  label : Label
  drop : Bool
  normalised : Bool
deriving DecidableEq, Repr

/-- The key of an event record (R118). -/
structure EventKey where
  fillDeck : DeckNo
  fillIn : StoredLabel
  keyInput : Input
  clip : Nat
  gain : Nat
  invert : Bool
  onOffset : Nat
  offOffset : Nat
deriving DecidableEq, Repr

structure EventSource where
  deck : DeckNo
  play : StoredLabel
deriving DecidableEq, Repr

/-- The event record of R118; a record in-point of none is MARK, a length of none is OPEN. -/
structure EventRecord where
  kind : EventKind
  recordIn : Option StoredLabel
  length : Option Nat
  transition : Transition
  start : Nat
  duration : Nat
  pattern : Nat
  curve : Nat
  reverse : Bool
  softness : Nat
  preroll : Nat
  postroll : Nat
  hold : Hold
  tracks : BitVec 4
  key : Option EventKey
  source1 : EventSource
  source2 : Option EventSource
deriving DecidableEq, Repr

/-- A player of an armed event: its deck, in-point and cue point, in frames (R119). -/
structure ArmedDeck where
  deck : DeckNo
  inPoint : Nat
  cue : Nat
deriving DecidableEq, Repr

/-- The arm results of R119; an out-point of none is OPEN. -/
structure ArmResults where
  recorder : DeckNo
  recordIn : Nat
  mark : Option (DeckNo × Origin)
  outPoint : Option Nat
  recorderCue : Nat
  source1 : ArmedDeck
  source2 : Option ArmedDeck
  fill : Option ArmedDeck
  duration : Nat
  durationClamped : Bool
deriving DecidableEq, Repr

/-- Why an event ended (R119), in code order. -/
inductive Reason
  | noReason | cueMiss | cueTimeout | notLocked | refLost | deckLocal | deckLost | recordRefused
  | chaseRange | syncLost | standardChange | hostAbort | allStop | engineReset | positionStale
deriving DecidableEq, Repr

/-- The run results of R119. -/
structure RunResults where
  reason : Reason
  recordOn : Option Nat
  recordOff : Option Nat
  substituted : Bool
deriving DecidableEq, Repr

structure Slot where
  state : SlotState
  event : Option EventRecord
  arm : Option ArmResults
  run : RunResults
deriving DecidableEq, Repr

inductive Phase | idle | cue | hold | roll | record | postroll
deriving DecidableEq, Repr

inductive CueState | waiting | taken | reached
deriving DecidableEq, Repr

structure CueRecord where
  state : CueState
  misses : Nat
  timer : Nat
deriving DecidableEq, Repr

/-- The engine state of R132 and the 64 slots of R117. -/
structure Eds where
  slots : Table Slot 64
  phase : Phase
  active : Option SlotNo
  cursor : SlotNo
  stopRequest : Bool
  latch : Bool
  holdWaiting : Bool
  guardLimit : Nat
  guardCount : Nat
  guardRunning : Bool
  cues : Table (Option CueRecord) 4
  rollField : Nat
  outPoint : Option Nat
  progress : Nat
  postroll : Nat
deriving DecidableEq, Repr

/-! ## Mix/Effects Processor (chapter 10) -/

inductive Source | a | b | c | black | bars
deriving DecidableEq, Repr

/-- The items of Table 10-2. -/
structure ParamSet where
  bg1 : Source
  bg2 : Source
  pvw : Source
  transition : Transition
  level : Nat
  pattern : Fin 16
  reverse : Bool
  softness : Nat
  keyOn : Bool
  fill : Source
  keyInput : Input
  clip : Nat
  gain : Nat
  invert : Bool
deriving DecidableEq, Repr

inductive Owner | host | auto | eds
deriving DecidableEq, Repr

inductive Shape | hEdge | vEdge | box | diamond | diag
deriving DecidableEq, Repr

/-- A record of the pattern table (R163). -/
structure PatternRecord where
  shape : Shape
  cellsX : Nat
  cellsY : Nat
  reverse : Bool
deriving DecidableEq, Repr

/-- The auto-take record (R170). -/
structure Take where
  kind : Transition
  duration : Nat
  curve : Fin 4
  count : Nat
deriving DecidableEq, Repr

/-- The active set (R157): the copied parameters, the owner, the pattern record, the substitution
decision of each input (none: not substituted), the standard that gives H, and whether the active lines
carry the MEP's pictures (R16). -/
structure ActiveSet where
  params : ParamSet
  owner : Owner
  pattern : PatternRecord
  subst : Table (Option Policy) 3
  std : Standard
  onAir : Bool
deriving DecidableEq, Repr

structure Mep where
  preload : ParamSet
  owner : Owner
  /-- the held host set; its level item is not used (R156) -/
  held : ParamSet
  take : Option Take
  active : ActiveSet
  patterns : Table PatternRecord 16
  curves : Table (Table Nat 17) 4
  /-- the contributions of A, B and C handed to the GTU at the last take (R172) -/
  contrib : Table Bool 3
deriving DecidableEq, Repr

/-! ## GPI/Tally Unit (chapter 11) -/

inductive GpiRole | noRole | mark | trigger | allStop
deriving DecidableEq, Repr

inductive Edge | rising | falling
deriving DecidableEq, Repr

structure Gpi where
  role : GpiRole
  edge : Edge
  debounce : Nat
  markDeck : DeckNo
  lastSample : Bool
  accepted : Bool
  run : Nat
deriving DecidableEq, Repr

inductive TallyRole | noRole | alert | onAir | editActive | sourceA | sourceB | sourceC
deriving DecidableEq, Repr

structure Gtu where
  gpis : Table Gpi 4
  tallies : Table TallyRole 4
  /-- the levels last seen at the GPI pins, Gn in bit n -/
  pins : BitVec 4
deriving DecidableEq, Repr

/-! ## The part and its queue -/

/-- The 420: every piece of state that the volume gives it. -/
structure Part where
  rtu : Rtu
  pku : Pku
  sius : Table Siu 3
  tcu : Tcu
  decks : Table Deck 4
  ports : Table Port 4
  chu : Chu
  eds : Eds
  mep : Mep
  gtu : Gtu
deriving DecidableEq, Repr

/-- The 420 and the commands that wait for it, first in, first out. -/
structure State where
  part : Part
  pending : List Instr
deriving DecidableEq, Repr

/-! ## Reset values -/

/-- R5. -/
def Rtu.reset : Rtu :=
  { lock := .noRef, std := .sys30, candidate := none, run := 0, miss := 0, fieldId := .one
    fieldCount := 0
    timing := { elapsed := 0, placed := 0, counted := .one, sentStd := .sys30, opened := false
                before := none, owes := none }
    refField := none, quiet := some 0, silence := none }

/-- The default line settings of Table 2-1. -/
def LineSettings.default (std : Standard) : LineSettings :=
  { window := (Config.windowLine std).2.2, status := (Config.statusLine std).2.2 }

/-- R33, R34: REF_LOST (bit 0) set, all eighteen notices enabled. -/
def Pku.reset (cause : ResetCause) : Pku :=
  { lines30 := .default .sys30, lines25 := .default .sys25, inUse := .default .sys30
    openedLocked := false, notices := 1#18, mask := BitVec.allOnes 18, cause := cause, errors := 0
    building := [], toWrite := [], fullPending := false, statusWords := [], statusBeside := none
    replyWords := [] }

/-- R40. -/
def Siu.reset : Siu :=
  { state := .noSignal, clean := 0, offset := 0, matchedField := none, store := []
    lookedUp := none
    vitc := { first30 := 14, second30 := 16, first25 := 19, second25 := 21 }, vitcInUse := (14, 16)
    reading := none, formed := false, vitcFirst := .notReached, vitcSecond := .notReached, fieldId := .one, line := 0
    quiet := 0, policy := .black, judging := false, closedJudging := false }

/-- R69, R70, R71. -/
def Tcu.reset : Tcu := { dfMode := false, settled := false, marks := [] }

/-- R60. -/
def PosRec.reset : PosRec :=
  { position := 0, valid := false, source := .estimate, age := 255, acc := 0, motion := 0
    vitcAge := 255, deckAge := 255, tcSource := .ltc, preference := .vitcFirst }

/-- Table 5-2; the default slot line is 30, 60, 90, 120 in deck order. -/
def Deck.reset (d : DeckNo) : Deck :=
  { role := .noRole, input := none, line := .unknown, transport := .stopped, servo := false
    inhibit := false, isLocal := false, speed := 0, timeouts := 0, lastReply := none
    want := .still, wantRecord := false, wantSpeed := 256, direct := none
    sent := .unknown, sentRecord := none, sentSpeed := none
    params := { poll := 4, slotLine := 30 * (d.val + 1), playLead := 10, recordLead := 5, tolerance := 0, timeout := 90 }
    position := .reset, chase := { state := .off, error := 0, lockCount := 0, speed := 256 } }

/-- R90. -/
def Port.reset (d : DeckNo) : Port :=
  { flight := none, prescaler := 0, directHold := false, tracks := 0, sending := [], sent := 0
    incoming := none, slotLine := 30 * (d.val + 1) }

/-- Tables 7-1 and 7-2. -/
def Chu.reset : Chu :=
  { params := { gain := 8, slew := 32, window := 60, lockRun := 3, unlock := 2, sync := 4 }
    syncWatch := false, own := .replicate 4 { playerIn := 0, recorderIn := 0, pending := false } }

/-- The run results after a load (R119). -/
def RunResults.fresh : RunResults :=
  { reason := .noReason, recordOn := none, recordOff := none, substituted := false }

/-- An EMPTY slot. It has no result part (R117); the run results kept here are those after a load, and are what EVENT_READ
writes for it (log entry 6). -/
def Slot.empty : Slot := { state := .empty, event := none, arm := none, run := .fresh }

/-- R117, R132. -/
def Eds.reset : Eds :=
  { slots := .replicate 64 .empty, phase := .idle, active := none, cursor := 0, stopRequest := false
    latch := false, holdWaiting := false, guardLimit := 10, guardCount := 0, guardRunning := false
    cues := .replicate 4 none, rollField := 0, outPoint := none, progress := 0, postroll := 0 }

/-- Table 10-2. -/
def ParamSet.reset : ParamSet :=
  { bg1 := .black, bg2 := .black, pvw := .black, transition := .cut, level := 0, pattern := 0
    reverse := false, softness := 0, keyOn := false, fill := .black, keyInput := .a, clip := 64
    gain := 16, invert := false }

/-- The built-in patterns of Table 10-3. -/
def builtInPatterns : Table PatternRecord 16 :=
  ⟨[⟨.hEdge, 1, 1, false⟩, ⟨.vEdge, 1, 1, false⟩, ⟨.box, 1, 1, false⟩, ⟨.diamond, 1, 1, false⟩,
    ⟨.diag, 1, 1, false⟩, ⟨.hEdge, 8, 1, false⟩, ⟨.vEdge, 1, 6, false⟩, ⟨.box, 4, 3, false⟩,
    ⟨.diamond, 4, 3, false⟩, ⟨.diag, 2, 2, false⟩, ⟨.hEdge, 2, 1, false⟩, ⟨.vEdge, 1, 2, false⟩,
    ⟨.box, 2, 1, false⟩, ⟨.diamond, 2, 2, false⟩, ⟨.diag, 4, 4, false⟩, ⟨.box, 8, 6, false⟩], rfl⟩

/-- The linear points of R165. -/
def linearCurve : Table Nat 17 := ⟨(List.range 17).map (256 * ·), by simp⟩

/-- R156: the active set equal to the reset preload, no input substituted, owner HOST. -/
def Mep.reset : Mep :=
  { preload := .reset, owner := .host, held := .reset, take := none
    active := { params := .reset, owner := .host, pattern := ⟨.hEdge, 1, 1, false⟩
                subst := .replicate 3 none, std := .sys30, onAir := false }
    patterns := builtInPatterns, curves := .replicate 4 linearCurve, contrib := .replicate 3 false }

/-- R173, R176. -/
def Gtu.reset : Gtu :=
  { gpis := .replicate 4 { role := .noRole, edge := .rising, debounce := 2, markDeck := 0
                           lastSample := false, accepted := false, run := 0 }
    tallies := .replicate 4 .noRole, pins := 0 }

/-- Every block at its reset value, with the reset cause (R33, R34). -/
def Part.reset (cause : ResetCause) : Part :=
  { rtu := .reset, pku := .reset cause, sius := .replicate 3 .reset, tcu := .reset
    decks := ⟨[.reset 0, .reset 1, .reset 2, .reset 3], rfl⟩
    ports := ⟨[.reset 0, .reset 1, .reset 2, .reset 3], rfl⟩
    chu := .reset, eds := .reset, mep := .reset, gtu := .reset }

/-- The machine right after power-on, with no command waiting. -/
def State.reset : State := { part := .reset .powerOn, pending := [] }

end Sys2Proof.Machine
end

