-- ==== Sys2Proof/Machine/Counting.lean ====
section
/-! DEFINITION. Labels, frame counts and positions (section 4.1, R54 to R59), and the byte forms of a
label (2.11.7, R39). -/

namespace Sys2Proof.Machine

open Sys2Proof

/-- The counting in use (R54): the standard in effect, and whether counting is drop-frame. -/
structure Counting where
  std : Standard
  drop : Bool
deriving DecidableEq, Repr

/-- Drop-frame exactly in SYS-30 with DF_MODE on (R54). -/
def countingOf (std : Standard) (df : Bool) : Counting :=
  { std := std, drop := std == .sys30 && df }

/-- The counting in use in the part (R54). -/
def Part.counting (p : Part) : Counting := countingOf p.rtu.std p.tcu.dfMode

/-- The label rate R (R54). -/
def Counting.rate (c : Counting) : Nat := Config.labelRate c.std

/-- The day in frames (Table 0-3). -/
def Counting.dayFrames (c : Counting) : Nat :=
  match c.std, c.drop with
  | .sys30, false => 2592000
  | .sys30, true => 2589408
  | .sys25, _ => 2160000

/-- The day in fields (Table 0-3). -/
def Counting.day (c : Counting) : Nat := 2 * c.dayFrames

/-- 0 for field 1, 1 for field 2. -/
def fieldBit : FieldId → Nat
  | .one => 0
  | .two => 1

/-- The field with this bit. -/
def fieldOfBit (n : Nat) : FieldId := if n % 2 = 0 then .one else .two

/-- The digits lie in the ranges of R55. -/
def labelInRange (c : Counting) (l : Label) : Bool :=
  l.hh ≤ 23 && l.mm ≤ 59 && l.ss ≤ 59 && l.ff < c.rate

/-- A skipped label (R56, 0.6.1). -/
def isSkipped (c : Counting) (l : Label) : Bool :=
  c.drop && l.ss == 0 && decide (l.ff < 2) && l.mm % 10 != 0

/-- R56: a skipped label moves forward to ff 02; the second part is the normalised indication. -/
def normalise (c : Counting) (l : Label) : Label × Bool :=
  if isSkipped c l then ({ l with ff := 2 }, true) else (l, false)

/-- The frame count of a label whose digits are in range, without normalising (R55). -/
def rawCount (c : Counting) (l : Label) : Nat :=
  if c.drop then
    (3600 * l.hh + 60 * l.mm + l.ss) * 30 + l.ff - 2 * ((60 * l.hh + l.mm) - (60 * l.hh + l.mm) / 10)
  else ((60 * l.hh + l.mm) * 60 + l.ss) * c.rate + l.ff

/-- The frame count of a label (R55 after R56). -/
def labelCount (c : Counting) (l : Label) : Nat := rawCount c (normalise c l).1

/-- The label of a count under the non-drop formulas of R57. -/
def plainLabel (rate n : Nat) (f : FieldId) : Label :=
  { hh := n / rate / 3600, mm := n / rate / 60 % 60, ss := n / rate % 60, ff := n % rate, field := f }

/-- N′ of R57: the drop-frame count with the skipped labels put back. -/
def undropped (n : Nat) : Nat :=
  if n % 17982 < 2 then n + 18 * (n / 17982)
  else n + 18 * (n / 17982) + 2 * ((n % 17982 - 2) / 1798)

/-- The label of a frame count (R57), with the field given. -/
def countLabel (c : Counting) (n : Nat) (f : FieldId) : Label :=
  if c.drop then plainLabel 30 (undropped n) f else plainLabel c.rate n f

/-- The position of frame `n`, field `f` (R58). -/
def positionOf (n : Nat) (f : FieldId) : Nat := 2 * n + fieldBit f

/-- The position of a label (R55, R56, R58). -/
def labelPosition (c : Counting) (l : Label) : Nat := positionOf (labelCount c l) l.field

/-- The label of a position with its field (R57, R58). -/
def positionLabel (c : Counting) (p : Nat) : Label := countLabel c (p / 2) (fieldOfBit p)

/-- The symmetric reduction of R109, from -day/2 to day/2 - 1. -/
def Counting.sym (c : Counting) (x : Int) : Int := (x + c.dayFrames) % c.day - c.dayFrames

/-- Subtraction on frame counts (R59): the wrapped result, and borrow. -/
def subFrames (c : Counting) (n k : Nat) : Nat × Bool :=
  ((((n : Int) - k) % c.dayFrames).toNat, decide (n < k))

/-- Addition on frame counts (R59): the wrapped result, and wrap. -/
def addFrames (c : Counting) (n k : Nat) : Nat × Bool :=
  ((n + k) % c.dayFrames, decide (c.dayFrames ≤ n + k))

/-- The five bytes of a label with the indications of Table 2-11. -/
def labelBytes (l : Label) (drop normalised : Bool) : List Byte :=
  [byteOf l.hh, byteOf l.mm, byteOf l.ss, byteOf l.ff,
   byteOf (fieldBit l.field + (if normalised then 4 else 0) + (if drop then 8 else 0))]

/-- A label the 420 forms (R57): drop-frame indication as the counting is, normalised clear. -/
def formedLabel (c : Counting) (l : Label) : List Byte := labelBytes l c.drop false

/-- A position as a label with its field. -/
def positionBytes (c : Counting) (p : Nat) : List Byte := formedLabel c (positionLabel c p)

/-- A frame count as a label, which names field 1. -/
def frameBytes (c : Counting) (n : Nat) : List Byte := formedLabel c (countLabel c n .one)

/-- Five bytes of zero: a label field that holds zero (R37). -/
def zeroLabel : List Byte := List.replicate 5 0

/-- A label operand read under the counting in use (R25, R39): none when it is refused, else the label
normalised forward where it is skipped, and the normalised indication. -/
def readLabel (c : Counting) (r : RawLabel) : Option (Label × Bool) :=
  let l : Label := { hh := r.hh, mm := r.mm, ss := r.ss, ff := r.ff, field := fieldOfBit (r.flags % 4) }
  if labelInRange c l && decide (r.flags % 4 < 2) then some (normalise c l) else none

end Sys2Proof.Machine
end

