-- ==== Sys2Proof/Machine/Operands.lean ====
section
/-! DEFINITION. How a command's owner treats its operands and answers (R23, R24, R27, R37): clamping of
tuning numbers, the codes of enumerated values, and the answer an owner returns to the PKU. -/

namespace Sys2Proof.Machine

open Sys2Proof

/-! ## Tuning numbers -/

/-- `clamp(v, lo, hi)` of 0.6.2. -/
def clampTo (lo hi v : Nat) : Nat := if v < lo then lo else if hi < v then hi else v

/-- `clamp` on signed values. -/
def clampInt (lo hi v : Int) : Int := if v < lo then lo else if hi < v then hi else v

/-- A tuning operand: its number, its range and the value given (R24). -/
structure Tuning where
  number : Nat
  lo : Nat
  hi : Nat
  value : Nat
deriving DecidableEq, Repr

/-- The operand numbers of the values that clamping changes, in ascending order (R24, R27). -/
def clampedNumbers (ts : List Tuning) : List Nat :=
  (ts.filter (fun t => clampTo t.lo t.hi t.value != t.value)).map Tuning.number

/-! ## Structural values -/

/-- The number of the first operand whose check fails (R23, R24). -/
def firstBad : List (Nat × Bool) → Option Nat
  | [] => none
  | (n, ok) :: rest => if ok then firstBad rest else some n

/-- A deck number operand. -/
def deckOf (n : Nat) : Option DeckNo := if h : n < 4 then some ⟨n, h⟩ else none

/-- A slot number operand. -/
def slotOf (n : Nat) : Option SlotNo := if h : n < 64 then some ⟨n, h⟩ else none

/-- An enumerated value A, B, C. -/
def inputOf : Nat → Option Input
  | 0 => some .a
  | 1 => some .b
  | 2 => some .c
  | _ => none

/-- The video input of DECK_ASSIGN: A, B, C, NONE (R80). -/
def videoInputOf : Nat → Option (Option Input)
  | 0 => some (some .a)
  | 1 => some (some .b)
  | 2 => some (some .c)
  | 3 => some none
  | _ => none

/-- OFF, ON. -/
def switchOf : Nat → Option Bool
  | 0 => some false
  | 1 => some true
  | _ => none

def policyOf : Nat → Option Policy
  | 0 => some .black
  | 1 => some .bars
  | _ => none

def preferenceOf : Nat → Option Preference
  | 0 => some .vitcFirst
  | 1 => some .deckFirst
  | _ => none

def roleOf : Nat → Option Role
  | 0 => some .noRole
  | 1 => some .player
  | 2 => some .recorder
  | _ => none

/-- The commands of R104 in their order. -/
def directOf : Nat → Option DirectCommand
  | 0 => some .play
  | 1 => some .stop
  | 2 => some .still
  | 3 => some .fastFwd
  | 4 => some .rewind
  | 5 => some .variableSpeed
  | 6 => some .cueTo
  | 7 => some .eject
  | 8 => some .recordOff
  | _ => none

def kindOf : Nat → Option EventKind
  | 0 => some .insert
  | 1 => some .preview
  | _ => none

def transitionOf : Nat → Option Transition
  | 0 => some .cut
  | 1 => some .mix
  | 2 => some .wipe
  | _ => none

def holdOf : Nat → Option Hold
  | 0 => some .noHold
  | 1 => some .beforeRoll
  | _ => none

def sourceOf : Nat → Option Source
  | 0 => some .a
  | 1 => some .b
  | 2 => some .c
  | 3 => some .black
  | 4 => some .bars
  | _ => none

def shapeOf : Nat → Option Shape
  | 0 => some .hEdge
  | 1 => some .vEdge
  | 2 => some .box
  | 3 => some .diamond
  | 4 => some .diag
  | _ => none

def gpiRoleOf : Nat → Option GpiRole
  | 0 => some .noRole
  | 1 => some .mark
  | 2 => some .trigger
  | 3 => some .allStop
  | _ => none

def edgeOf : Nat → Option Edge
  | 0 => some .rising
  | 1 => some .falling
  | _ => none

/-- The tally roles in the order of R176's table. -/
def tallyRoleOf : Nat → Option TallyRole
  | 0 => some .noRole
  | 1 => some .alert
  | 2 => some .onAir
  | 3 => some .editActive
  | 4 => some .sourceA
  | 5 => some .sourceB
  | 6 => some .sourceC
  | _ => none

/-! ## Codes (Table 2-10 and the lists of the chapters, R37) -/

def standardCode : Standard → Nat
  | .sys30 => 0
  | .sys25 => 1

def Lock.code : Lock → Nat
  | .noRef => 0
  | .acquire => 1
  | .locked => 2
  | .freewheel => 3

def Result.code : Result → Nat
  | .accepted => 0
  | .clamped => 1
  | .badFormat => 2
  | .unknown => 3
  | .badValue => 4
  | .busy => 5
  | .state => 6
  | .noMark => 7

def ResetCause.code : ResetCause → Nat
  | .powerOn => 0
  | .resetLine => 1
  | .command => 2

def Phase.code : Phase → Nat
  | .idle => 0
  | .cue => 1
  | .hold => 2
  | .roll => 3
  | .record => 4
  | .postroll => 5

def Role.code : Role → Nat
  | .noRole => 0
  | .player => 1
  | .recorder => 2

def LineState.code : LineState → Nat
  | .unknown => 0
  | .online => 1
  | .inLocal => 2
  | .absent => 3

def transportCode : Transport → Nat
  | .stopped => 0
  | .still => 1
  | .play => 2
  | .variableSpeed => 3
  | .fastFwd => 4
  | .rewind => 5
  | .cueing => 6
  | .record => 7
  | .noTape => 8

def ChaseState.code : ChaseState → Nat
  | .off => 0
  | .pullIn => 1
  | .locked => 2
  | .lost => 3

/-- OFF 0, ON 1. -/
def switchCode (b : Bool) : Nat := if b then 1 else 0

/-- Last-sent record level: OFF 0, ON 1, UNKNOWN 2. -/
def sentRecordCode : Option Bool → Nat
  | some b => switchCode b
  | none => 2

def Owner.code : Owner → Nat
  | .host => 0
  | .auto => 1
  | .eds => 2

def Source.code : Source → Nat
  | .a => 0
  | .b => 1
  | .c => 2
  | .black => 3
  | .bars => 4

def Transition.code : Transition → Nat
  | .cut => 0
  | .mix => 1
  | .wipe => 2

def SiuState.code : SiuState → Nat
  | .noSignal => 0
  | .formatError => 1
  | .outOfWindow => 2
  | .inWindow => 3

def inputCode : Input → Nat
  | .a => 0
  | .b => 1
  | .c => 2

/-- Video input of DECK_READ: A 0, B 1, C 2, NONE 3 (Table 5-3). -/
def videoInputCode : Option Input → Nat
  | some i => inputCode i
  | none => 3

def PosSource.code : PosSource → Nat
  | .vitc => 0
  | .deck => 1
  | .estimate => 2

def tcSourceCode : TcSource → Nat
  | .ltc => 0
  | .ctl => 1

def Preference.code : Preference → Nat
  | .vitcFirst => 0
  | .deckFirst => 1

/-- Origins in the order of R71: G0, G1, G2, G3, HOST. -/
def Origin.code : Origin → Nat
  | .g i => i.val
  | .host => 4

def SlotState.code : SlotState → Nat
  | .empty => 0
  | .loaded => 1
  | .armed => 2
  | .active => 3
  | .done => 4
  | .failed => 5
  | .aborted => 6

/-- Reasons, coded 0 to 14 in the order of R119. -/
def Reason.code : Reason → Nat
  | .noReason => 0
  | .cueMiss => 1
  | .cueTimeout => 2
  | .notLocked => 3
  | .refLost => 4
  | .deckLocal => 5
  | .deckLost => 6
  | .recordRefused => 7
  | .chaseRange => 8
  | .syncLost => 9
  | .standardChange => 10
  | .hostAbort => 11
  | .allStop => 12
  | .engineReset => 13
  | .positionStale => 14

def EventKind.code : EventKind → Nat
  | .insert => 0
  | .preview => 1

def Hold.code : Hold → Nat
  | .noHold => 0
  | .beforeRoll => 1

/-- The commands of R104, coded in their order (Table 5-3, item 12). -/
def DirectCommand.code : DirectCommand → Nat
  | .play => 0
  | .stop => 1
  | .still => 2
  | .fastFwd => 3
  | .rewind => 4
  | .variableSpeed => 5
  | .cueTo => 6
  | .eject => 7
  | .recordOff => 8

/-! ## Answers -/

/-- What an owner returns to the PKU for one command (R22, R27). -/
structure Answer where
  result : Result
  normalised : Bool := false
  notRestored : Bool := false
  borrow : Bool := false
  wrap : Bool := false
  operand : Nat := 0
  clamped : List Nat := []
  payload : List Byte := []
deriving DecidableEq, Repr

namespace Answer

/-- Taken as given. -/
def accepted : Answer := { result := .accepted }

/-- A structural value refused, naming its operand (R24). -/
def badValue (n : Nat) : Answer := { result := .badValue, operand := n }

/-- The target is held by a running operation. -/
def busy : Answer := { result := .busy }

/-- Not allowed in the present state. -/
def state : Answer := { result := .state }

/-- A mark was needed and the stack is empty. -/
def noMark : Answer := { result := .noMark }

/-- ACCEPTED, or CLAMPED listing the operands that clamping changed (R24). -/
def taken (ts : List Tuning) : Answer :=
  match clampedNumbers ts with
  | [] => accepted
  | ns => { result := .clamped, clamped := ns }

end Answer

end Sys2Proof.Machine
end

