-- ==== Sys2Proof/Machine/Ops.lean ====
section
/-! DEFINITION. The named operations over the part that the blocks share: updates of one deck, port or
input, notices, replies, and the demand writes of section 6.6. -/

namespace Sys2Proof.Machine

open Sys2Proof

/-! ## Running a command -/

/-- The outcome of a command whose effect is a change of the part: the queue stays as it is. -/
def ran (s : State) (p : Part) : Host.Outcome State Fault Refusal := .next { s with part := p }

/-! ## One deck, port or input -/

/-- The four decks in deck order. -/
def allDecks : List DeckNo := [0, 1, 2, 3]

/-- The three inputs in order. -/
def allInputs : List Input := [.a, .b, .c]

def Part.deck (p : Part) (d : DeckNo) : Deck := p.decks.get d

def Part.port (p : Part) (d : DeckNo) : Port := p.ports.get d

def Part.siu (p : Part) (i : Input) : Siu := p.sius.get i.idx

def Part.slot (p : Part) (n : SlotNo) : Slot := p.eds.slots.get n

/-- Change one deck record. -/
def Part.modDeck (p : Part) (d : DeckNo) (f : Deck → Deck) : Part :=
  { p with decks := p.decks.modify d f }

/-- Change one port. -/
def Part.modPort (p : Part) (d : DeckNo) (f : Port → Port) : Part :=
  { p with ports := p.ports.modify d f }

/-- Change one SIU. -/
def Part.modSiu (p : Part) (i : Input) (f : Siu → Siu) : Part :=
  { p with sius := p.sius.modify i.idx f }

/-- Change what the CHU keeps of one deck. -/
def Part.modChase (p : Part) (d : DeckNo) (f : ChaseOwn → ChaseOwn) : Part :=
  { p with chu := { p.chu with own := p.chu.own.modify d f } }

/-- Change the engine. -/
def Part.modEds (p : Part) (f : Eds → Eds) : Part := { p with eds := f p.eds }

/-- Change one slot. -/
def Part.modSlot (p : Part) (n : SlotNo) (f : Slot → Slot) : Part :=
  p.modEds (fun e => { e with slots := e.slots.modify n f })

/-- Change the mixer. -/
def Part.modMep (p : Part) (f : Mep → Mep) : Part := { p with mep := f p.mep }

/-- Change the packet unit. -/
def Part.modPku (p : Part) (f : Pku → Pku) : Part := { p with pku := f p.pku }

/-- Change the RTU. -/
def Part.modRtu (p : Part) (f : Rtu → Rtu) : Part := { p with rtu := f p.rtu }

/-- Change the timecode unit. -/
def Part.modTcu (p : Part) (f : Tcu → Tcu) : Part := { p with tcu := f p.tcu }

/-- Change the GPI/Tally unit. -/
def Part.modGtu (p : Part) (f : Gtu → Gtu) : Part := { p with gtu := f p.gtu }

/-- The deck whose role is RECORDER (0.6.3). -/
def Part.recorder (p : Part) : Option DeckNo :=
  allDecks.find? (fun d => (p.deck d).role == .recorder)

/-- The deck that holds an input as its video input (R79). -/
def Part.holder (p : Part) (i : Input) : Option DeckNo :=
  allDecks.find? (fun d => (p.deck d).input == some i)

/-- Do something for each deck of a list, in order. -/
def Part.each (p : Part) (ds : List DeckNo) (f : DeckNo → Part → Part) : Part :=
  ds.foldl (fun q d => f d q) p

/-! ## Notices (R30) -/

/-- The bit of a notice (Table 2-3). -/
def Notice.bit : Notice → Nat
  | .refLost => 0
  | .refJump => 1
  | .standardChange => 2
  | .packetError => 3
  | .inputWindow => 4
  | .inputFormat => 5
  | .deckTimeout => 6
  | .deckAbsent => 7
  | .deckLocal => 8
  | .deckRefused => 9
  | .markTaken => 10
  | .markOverflow => 11
  | .markRefused => 12
  | .holdWaiting => 13
  | .eventDone => 14
  | .eventFailed => 15
  | .listEnd => 16
  | .guardTrip => 17

/-- The mask with one notice in it. -/
def Notice.mask (n : Notice) : BitVec 18 := 1#18 <<< n.bit

/-- Set a notice (R30). -/
def Part.raise (p : Part) (n : Notice) : Part :=
  p.modPku (fun k => { k with notices := k.notices ||| n.mask })

/-- A notice is set. -/
def Part.noticeSet (p : Part) (n : Notice) : Bool := p.pku.notices.getLsbD n.bit

/-! ## Replies (R22, R26, R27) -/

/-- The reply record of an answer to a packet of this kind at this window line offset (R27). -/
def replyOf (kind off : Nat) (a : Answer) : Reply :=
  { kind := kind, result := a.result, offset := off, normalised := a.normalised
    notRestored := a.notRestored, borrow := a.borrow, wrap := a.wrap, operand := a.operand
    clamped := a.clamped, payload := a.payload }

/-- Place a reply in the list being built (R22, R26). -/
def Part.reply (p : Part) (kind off : Nat) (a : Answer) : Part :=
  p.modPku (fun k => { k with building := k.building ++ [replyOf kind off a] })

/-- A dispatched host command: its owner's effect and answer, and the reply (R22). -/
def dispatched (s : State) (kind off : Nat) (r : Part × Answer) : Host.Outcome State Fault Refusal :=
  ran s (r.1.reply kind off r.2)

/-! ## Demands (R101, R102) -/

/-- A write of the wanted transport, which sets the direct hold to false. -/
def Part.wantTransport (p : Part) (d : DeckNo) (w : Want) : Part :=
  (p.modDeck d (fun k => { k with want := w })).modPort d (fun q => { q with directHold := false })

/-- A write of the wanted transport with a resend request: the last-sent transport becomes UNKNOWN. -/
def Part.wantTransportResent (p : Part) (d : DeckNo) (w : Want) : Part :=
  (p.wantTransport d w).modDeck d (fun k => { k with sent := .unknown })

/-- A write of the wanted record level ON with its track set. -/
def Part.wantRecordOn (p : Part) (d : DeckNo) (tracks : BitVec 4) : Part :=
  (p.modDeck d (fun k => { k with wantRecord := true })).modPort d (fun q => { q with tracks := tracks })

/-- A write of the wanted record level OFF. -/
def Part.wantRecordOff (p : Part) (d : DeckNo) : Part :=
  p.modDeck d (fun k => { k with wantRecord := false })

/-- A write of the wanted speed. -/
def Part.wantSpeed (p : Part) (d : DeckNo) (v : Int) : Part :=
  p.modDeck d (fun k => { k with wantSpeed := v })

/-- Drop the pending direct command (R81, R103). -/
def Part.dropDirect (p : Part) (d : DeckNo) : Part :=
  p.modDeck d (fun k => { k with direct := none })

/-! ## The active event -/

/-- The event record of the active slot. -/
def Part.activeEvent (p : Part) : Option EventRecord :=
  match p.eds.active with
  | some n => (p.slot n).event
  | none => none

/-- The arm results of the active slot. -/
def Part.activeArm (p : Part) : Option ArmResults :=
  match p.eds.active with
  | some n => (p.slot n).arm
  | none => none

/-- A deck is a background deck of an event. -/
def EventRecord.hasBackground (e : EventRecord) (d : DeckNo) : Bool :=
  e.source1.deck == d ||
    match e.source2 with
    | some s => s.deck == d
    | none => false

/-- A deck is the key fill deck of an event. -/
def EventRecord.hasFill (e : EventRecord) (d : DeckNo) : Bool :=
  match e.key with
  | some k => k.fillDeck == d
  | none => false

/-- A deck is in the active event (R79). -/
def Part.inActiveEvent (p : Part) (d : DeckNo) : Bool :=
  match p.activeEvent with
  | none => false
  | some e => (p.deck d).role == .recorder || e.hasBackground d || e.hasFill d

/-- The decks of the active event, in deck order (R79, R132). -/
def Part.eventDecks (p : Part) : List DeckNo := allDecks.filter p.inActiveEvent

/-- No slot is ACTIVE unless the engine names it (R132). -/
def Part.eventActive (p : Part) : Bool := p.eds.active.isSome

end Sys2Proof.Machine
end

