-- ==== Sys2Proof/Machine/Marks.lean ====
section
/-! DEFINITION. The mark stack (section 4.7, R71 to R76). -/

namespace Sys2Proof.Machine

open Sys2Proof

/-- The most marks the stack holds (R71). -/
def markDepth : Nat := 8

/-- A push (R72): on top; at depth 8 the oldest entry is removed. -/
def pushedMarks (m : Mark) (marks : List Mark) : List Mark := (m :: marks).take markDepth

/-- A push with its notices: MARK_TAKEN, and MARK_OVERFLOW where the oldest entry was removed (R72). -/
def Part.pushMark (p : Part) (m : Mark) : Part :=
  let q := (p.modTcu (fun t => { t with marks := pushedMarks m t.marks })).raise .markTaken
  if p.tcu.marks.length < markDepth then q else q.raise .markOverflow

/-- Empty the stack, without notice (R69, R70, R76). -/
def Part.clearMarks (p : Part) : Part := p.modTcu (fun t => { t with marks := [] })

/-- A capture judged on the deck's record as it stands (R74). -/
def Part.capture (p : Part) (d : DeckNo) (g : Fin 4) : Part :=
  if (p.deck d).position.valid then
    p.pushMark { position := (p.deck d).position.position, deck := d, origin := .g g }
  else p.raise .markRefused

end Sys2Proof.Machine
end

