-- ==== Sys2Proof/Machine/Flags.lean ====
section
/-! DEFINITION. The levels that follow a condition at every instant: the alert condition (R32) and the
tally outputs (R176). They are views of the state, so they change at the instant the condition does. -/

namespace Sys2Proof.Machine

open Sys2Proof

/-- The alert condition: at least one notice is both set and enabled (R32). -/
def Part.alert (p : Part) : Bool := (p.pku.notices &&& p.pku.mask) != 0

/-- The condition of a tally role (R176). -/
def Part.tallyCondition (p : Part) : TallyRole → Bool
  | .noRole => false
  | .alert => p.alert
  | .onAir =>
    match p.recorder with
    | some d => (p.deck d).sentRecord == some true
    | none => false
  | .editActive => p.eventActive
  | .sourceA => p.mep.contrib.get 0
  | .sourceB => p.mep.contrib.get 1
  | .sourceC => p.mep.contrib.get 2

/-- The level of one tally output: lit exactly while its role's condition holds (R176). -/
def Part.tallyLit (p : Part) (t : Fin 4) : Bool := p.tallyCondition (p.gtu.tallies.get t)

/-- Four levels as bits, entry n in bit n (Table 2-6, bytes 81 and 82). -/
def levelBits (f : Fin 4 → Bool) : Nat :=
  switchCode (f 0) + 2 * switchCode (f 1) + 4 * switchCode (f 2) + 8 * switchCode (f 3)

end Sys2Proof.Machine
end

