-- ==== Sys2Proof/Machine/Wire.lean ====
section
/-! DEFINITION. The wire formats of section 2.11 that the 420 writes: words and packets (R38), reply
records, the status block (R29, R87), deck-line frames, and the records of kind payloads. -/

namespace Sys2Proof.Machine

open Sys2Proof

/-! ## Words and packets (2.11.1) -/

/-- The byte has an odd number of ones. -/
def oddOnes (b : Byte) : Bool :=
  (List.range 8).foldl (fun acc i => Bool.xor acc (b.getLsbD i)) false

/-- A byte in a 10-bit word: bit 8 its even parity, bit 9 the inverse of bit 8. -/
def wordOf (b : Byte) : Word10 := BitVec.ofNat 10 (b.toNat + if oddOnes b then 256 else 512)

/-- The sum modulo 512 of the low nine bits of words. -/
def nineBitSum (ws : List Word10) : Nat := ws.foldl (fun a w => (a + w.toNat % 512) % 512) 0

/-- The check word of the words from kind through last payload word. -/
def checkWord (ws : List Word10) : Word10 :=
  let s := nineBitSum ws
  BitVec.ofNat 10 (if s < 256 then s + 512 else s)

/-- The three lead words (R19). -/
def leadWords : List Word10 := [0x0A5#10, 0x35A#10, 0x0A5#10]

/-- Kind, length and payload words. -/
def bodyWords (kind : Byte) (payload : List Byte) : List Word10 :=
  wordOf kind :: wordOf (byteOf payload.length) :: payload.map wordOf

/-- A packet of Table 2-4, from the lead through the check word. -/
def packetWords (kind : Byte) (payload : List Byte) : List Word10 :=
  leadWords ++ bodyWords kind payload ++ [checkWord (bodyWords kind payload)]

/-! ## Reply record (Table 2-5) -/

/-- The payload of a reply record. -/
def Reply.bytes (r : Reply) : List Byte :=
  [byteOf r.kind, byteOf r.result.code, byteOf r.offset,
   byteOf (switchCode r.normalised + 2 * switchCode r.notRestored + 4 * switchCode r.borrow + 8 * switchCode r.wrap),
   byteOf (match r.result with
     | .badValue => r.operand
     | .clamped => r.clamped.length
     | _ => 0)]
  ++ (if r.result = .clamped then r.clamped.map byteOf else []) ++ r.payload

/-- The record type bytes of R38. -/
def statusType : Byte := 0xF0

def replyType : Byte := 0xF1

/-! ## Status block (Tables 2-6 and 2-7) -/

/-- The chase error as the status block saturates it (R87). -/
def saturatedError (c : ChaseItems) : Int := if c.state = .off then 0 else clampInt (-128) 127 c.error

/-- The entry of one deck (Table 2-7). DESIGN CHOICE (log entry 43): R105 has the lock counter and the speed demand
reported in the status block as well, Table 2-7 and R87 give them no byte, and they are reported beside the bytes
(Part.statusBeside). -/
def deckEntry (c : Counting) (k : Deck) : List Byte :=
  [byteOf k.role.code, byteOf k.line.code, byteOf (transportCode k.transport)]
  ++ positionBytes c k.position.position
  ++ [flagByte k.position.valid, byteOf k.chase.state.code]
  ++ numBytes 1 (saturatedError k.chase)
  ++ [byteOf (switchCode k.wantRecord), byteOf (sentRecordCode k.sentRecord)]

/-- The 83 bytes of the status block, every item as it stands (R29, R87, R172). DESIGN CHOICE (log entry 40): R4 has the
field identity reported here, Table 2-6 gives it no byte, and it is reported beside the bytes (Part.statusBeside). -/
def Part.statusBytes (p : Part) : List Byte :=
  numBytes 3 p.rtu.fieldCount
  ++ [byteOf (standardCode p.rtu.std), byteOf p.rtu.lock.code, flagByte p.tcu.dfMode]
  ++ numBytes 3 p.pku.notices.toNat ++ numBytes 3 p.pku.mask.toNat
  ++ [byteOf p.pku.cause.code, byteOf p.pku.errors, byteOf p.eds.phase.code,
      byteOf (match p.eds.active with
        | some n => n.val
        | none => 255),
      byteOf p.eds.cursor.val, flagByte p.eds.holdWaiting, byteOf p.tcu.marks.length]
  ++ deckEntry p.counting (p.deck 0) ++ deckEntry p.counting (p.deck 1)
  ++ deckEntry p.counting (p.deck 2) ++ deckEntry p.counting (p.deck 3)
  ++ [byteOf p.mep.owner.code, byteOf p.mep.active.params.transition.code]
  ++ numBytes 2 p.mep.active.params.level
  ++ [byteOf p.mep.active.params.bg1.code, byteOf p.mep.active.params.bg2.code,
      flagByte p.mep.active.params.keyOn,
      byteOf (p.siu .a).state.code, byteOf (p.siu .b).state.code, byteOf (p.siu .c).state.code,
      byteOf (levelBits (fun g => (p.gtu.gpis.get g).accepted)), byteOf (levelBits p.tallyLit)]

/-- What the status block reports beside its bytes: the field identity (R4), and the lock counter and speed demand of each
deck (R105). DESIGN CHOICE (log entries 40 and 43). -/
def Part.statusBeside (p : Part) : StatusBeside :=
  { identity := p.rtu.fieldId
    lockCounts := p.decks.map (fun k => k.chase.lockCount), speeds := p.decks.map (fun k => k.chase.speed) }

/-! ## Deck-line frames (Table 2-12) -/

/-- The code of a deck command. -/
def Frame.code : Frame → Nat
  | .poll => 0x01
  | .play => 0x02
  | .stop => 0x03
  | .still => 0x04
  | .fastFwd => 0x05
  | .rewind => 0x06
  | .variableSpeed _ => 0x07
  | .cueTo _ _ => 0x08
  | .recordOn _ => 0x09
  | .recordOff => 0x0A
  | .eject => 0x0B

/-- The data bytes of a deck command. -/
def Frame.data : Frame → List Byte
  | .variableSpeed v => numBytes 2 v
  | .cueTo _ label => label
  | .recordOn tracks => [byteOf tracks.toNat]
  | _ => []

/-- The sum of bytes modulo 256. -/
def byteSum (bs : List Byte) : Byte := bs.foldl (· + ·) 0

/-- The bytes of a frame, sync through check; the check byte makes the sum 0 modulo 256 (2.11.8). -/
def Frame.bytes (f : Frame) : List Byte :=
  let body : List Byte := [0xC3, byteOf f.code, byteOf f.data.length] ++ f.data
  body ++ [-byteSum body]

/-! ## Records in kind payloads (R37) -/

/-- A label that a slot stores, as stored. -/
def StoredLabel.bytes (l : StoredLabel) : List Byte := labelBytes l.label l.drop l.normalised

/-- An optional part with a form of fixed size for its absence (R37). -/
def optionalPart (absent : List Byte) : Option (List Byte) → List Byte
  | none => 0 :: absent
  | some bs => 1 :: bs

/-- Zero bytes: the fields of an absent part. -/
def zeros (n : Nat) : List Byte := List.replicate n 0

/-- The wanted transport of Table 5-3, item 9. -/
def wantBytes (c : Counting) : Want → List Byte
  | .stop => 0 :: zeroLabel
  | .still => 1 :: zeroLabel
  | .play => 2 :: zeroLabel
  | .cueTo n => 3 :: frameBytes c n

/-- The last-sent transport of Table 5-3, item 13. -/
def sentBytes (c : Counting) : Sent → List Byte
  | .unknown => 0 :: zeroLabel
  | .stop => 1 :: zeroLabel
  | .still => 2 :: zeroLabel
  | .play => 3 :: zeroLabel
  | .fastFwd => 4 :: zeroLabel
  | .rewind => 5 :: zeroLabel
  | .eject => 6 :: zeroLabel
  | .cueTo n => 7 :: frameBytes c n

/-- The pending direct command of Table 5-3, item 12: command, speed, label. DESIGN CHOICE (log entry 39): the label of a
CUE_TO is written with the normalised bit clear, whether or not DECK_DIRECT normalised it, and the fields that a command
does not use hold zero. -/
def directBytes (c : Counting) (x : Direct) : List Byte :=
  byteOf x.command.code :: numBytes 2 x.speed ++
    (match x.cue with
     | some l => formedLabel c l
     | none => zeroLabel)

/-- The kind payload of DECK_READ (Table 5-3). -/
def deckRecordBytes (c : Counting) (d : DeckNo) (k : Deck) : List Byte :=
  [byteOf d.val, byteOf k.role.code, byteOf (videoInputCode k.input), byteOf k.line.code,
   byteOf (transportCode k.transport),
   byteOf (switchCode k.servo + 2 * switchCode k.inhibit + 4 * switchCode k.isLocal)]
  ++ numBytes 2 k.speed ++ [byteOf k.timeouts]
  ++ wantBytes c k.want ++ [byteOf (switchCode k.wantRecord)] ++ numBytes 2 k.wantSpeed
  ++ optionalPart (zeros 8) (k.direct.map (directBytes c))
  ++ sentBytes c k.sent ++ [byteOf (sentRecordCode k.sentRecord)]
  ++ (match k.sentSpeed with
      | some v => 0 :: numBytes 2 v
      | none => 1 :: zeros 2)
  ++ [byteOf k.params.poll, byteOf k.params.slotLine, byteOf k.params.playLead,
      byteOf k.params.recordLead, byteOf k.params.tolerance, byteOf k.params.timeout]
  ++ positionBytes c k.position.position
  ++ [flagByte k.position.valid, byteOf k.position.source.code, byteOf k.position.age,
      byteOf k.position.acc]
  ++ numBytes 2 k.position.motion
  ++ [byteOf k.position.vitcAge, byteOf k.position.deckAge, byteOf (tcSourceCode k.position.tcSource),
      byteOf k.position.preference.code, byteOf k.chase.state.code]
  ++ numBytes 3 k.chase.error ++ [byteOf k.chase.lockCount] ++ numBytes 2 k.chase.speed
  ++ optionalPart (zeros 3)
      (k.lastReply.map (fun r => [byteOf r.code, byteOf (switchCode r.refused), byteOf r.reason]))

/-- The kind payload of MARK_POP (R75): the position as a label with its field, the deck, the origin. -/
def markBytes (c : Counting) (m : Mark) : List Byte :=
  positionBytes c m.position ++ [byteOf m.deck.val, byteOf m.origin.code]

/-- One player of the arm results (R129): deck, in-point label, cue point label. -/
def armedDeckBytes (c : Counting) (a : ArmedDeck) : List Byte :=
  byteOf a.deck.val :: frameBytes c a.inPoint ++ frameBytes c a.cue

/-- The arm results in the order of R129. -/
def armBytes (c : Counting) (a : ArmResults) : List Byte :=
  byteOf a.recorder.val :: frameBytes c a.recordIn
  ++ optionalPart (zeros 2) (a.mark.map (fun m => [byteOf m.1.val, byteOf m.2.code]))
  ++ (match a.outPoint with
      | some n => 0 :: frameBytes c n
      | none => 1 :: zeroLabel)
  ++ frameBytes c a.recorderCue
  ++ (match a.source2 with
      | none => 1 :: armedDeckBytes c a.source1
      | some s => 2 :: armedDeckBytes c a.source1 ++ armedDeckBytes c s)
  ++ optionalPart (zeros 11) (a.fill.map (armedDeckBytes c))
  ++ numBytes 2 a.duration ++ [flagByte a.durationClamped]

/-- The key of an event record, behind its presence byte (Table 8-2, operands 16 to 23). -/
def keyBytes (k : EventKey) : List Byte :=
  byteOf k.fillDeck.val :: k.fillIn.bytes ++ [byteOf (inputCode k.keyInput)] ++ numBytes 2 k.clip
  ++ [byteOf k.gain, flagByte k.invert] ++ numBytes 3 k.onOffset ++ numBytes 3 k.offOffset

/-- One source entry (Table 8-2, operands 24 to 27). -/
def eventSourceBytes (s : EventSource) : List Byte := byteOf s.deck.val :: s.play.bytes

/-- An event record in the operand order and forms of Table 8-2 from operand 2 onward (R123). -/
def eventBytes (e : EventRecord) : List Byte :=
  [byteOf e.kind.code]
  ++ (match e.recordIn with
      | some l => 0 :: l.bytes
      | none => 1 :: zeroLabel)
  ++ (match e.length with
      | some n => 0 :: numBytes 3 n
      | none => 1 :: zeros 3)
  ++ [byteOf e.transition.code] ++ numBytes 3 e.start ++ numBytes 2 e.duration
  ++ [byteOf e.pattern, byteOf e.curve, flagByte e.reverse, byteOf e.softness]
  ++ numBytes 2 e.preroll ++ numBytes 2 e.postroll
  ++ [byteOf e.hold.code, byteOf e.tracks.toNat]
  ++ optionalPart (zeros 17) (e.key.map keyBytes)
  ++ (match e.source2 with
      | none => 1 :: eventSourceBytes e.source1
      | some s => 2 :: eventSourceBytes e.source1 ++ eventSourceBytes s)

/-- A recorded field of the run results: an optional part holding a label with its field (R123). -/
def recordedFieldBytes (c : Counting) (f : Option Nat) : List Byte :=
  optionalPart zeroLabel (f.map (positionBytes c))

/-- The bytes of an absent event record: its fields hold zero, and its source list has a count of zero (R37). -/
def absentEvent : List Byte := zeros 46

/-- The bytes of absent arm results: their fields hold zero, and their list has a count of zero (R37). -/
def absentArm : List Byte := zeros 36

/-- The kind payload of EVENT_READ (R123). The run results of an EMPTY slot, which has none, are written as those after a
load (log entry 6). -/
def slotBytes (c : Counting) (s : Slot) : List Byte :=
  byteOf s.state.code :: optionalPart absentEvent (s.event.map eventBytes) ++ optionalPart absentArm (s.arm.map (armBytes c))
  ++ [byteOf s.run.reason.code] ++ recordedFieldBytes c s.run.recordOn
  ++ recordedFieldBytes c s.run.recordOff ++ [flagByte s.run.substituted]

end Sys2Proof.Machine
end

