-- ==== Sys2Proof/Machine/ArmValidation.lean ====
section
/-! DEFINITION. The arm validation of section 8.4 (R124 to R129), its seven steps in order, and the
disarms of section 8.5 (R130). -/

namespace Sys2Proof.Machine

open Sys2Proof

/-- The key of an event whose fill deck has its own in-point: present, and not a background deck (R126). -/
def EventRecord.ownFill (e : EventRecord) : Option EventKey :=
  match e.key with
  | some k => if e.hasBackground k.fillDeck then none else some k
  | none => none

/-- A deck may play in an event: role PLAYER and a video input (R125, step 2). -/
def Part.canPlay (p : Part) (d : DeckNo) : Bool :=
  (p.deck d).role == .player && (p.deck d).input.isSome

/-- Step 2: every source entry's deck and the fill deck can play; the entries differ (R125). -/
def Part.playersFault (p : Part) (e : EventRecord) : Option Answer :=
  if !p.canPlay e.source1.deck then some .state
  else if (e.source2.any fun s => !p.canPlay s.deck) then some .state
  else if (e.key.any fun k => !p.canPlay k.fillDeck) then some .state
  else if (e.source2.any fun s => s.deck == e.source1.deck) then some (.badValue 26)
  else none

/-- Step 3: the key input is not held by the recorder (R125). -/
def Part.keyInputFault (p : Part) (e : EventRecord) : Option Answer :=
  match e.key with
  | none => none
  | some k =>
    match p.holder k.keyInput with
    | none => none
    | some d => if (p.deck d).role = .recorder then some .state else none

/-- A stored label resolved to a frame count under the counting in use, with the normalised indication;
one with a digit out of range is refused naming its operand (R126). -/
def resolveLabel (c : Counting) (operand : Nat) (l : StoredLabel) : Except Answer (Nat × Bool) :=
  if labelInRange c l.label then .ok (labelCount c l.label, (normalise c l.label).2)
  else .error (.badValue operand)

/-- The in-points of an event as step 4 resolves them. -/
structure InPoints where
  recordIn : Nat
  mark : Option (DeckNo × Origin)
  play1 : Nat
  play2 : Option Nat
  fill : Option Nat
  normalised : Bool
deriving DecidableEq, Repr

/-- The record in-point of step 4: a label, or the top of the mark stack, with the stack left (R126). -/
def resolveRecordIn (c : Counting) (marks : List Mark) (e : EventRecord) :
    Except Answer (Nat × Option (DeckNo × Origin) × Bool) × List Mark :=
  match e.recordIn with
  | some l =>
    match resolveLabel c 3 l with
    | .ok (n, nrm) => (.ok (n, none, nrm), marks)
    | .error a => (.error a, marks)
  | none =>
    match marks with
    | m :: rest => (.ok (m.position / 2, some (m.deck, m.origin), false), rest)
    | [] => (.error .noMark, [])

/-- An optional in-point resolved (R126). -/
def resolveOptional (c : Counting) (operand : Nat) : Option StoredLabel → Except Answer (Option Nat × Bool)
  | none => .ok (none, false)
  | some l =>
    match resolveLabel c operand l with
    | .ok (n, nrm) => .ok (some n, nrm)
    | .error a => .error a

/-- The rest of step 4: entry 1, entry 2, fill, in that order (R126). -/
def resolvePlays (c : Counting) (e : EventRecord) (first : Nat × Option (DeckNo × Origin) × Bool) :
    Except Answer InPoints := do
  let (n1, b1) ← resolveLabel c 25 e.source1.play
  let (n2, b2) ← resolveOptional c 27 (e.source2.map EventSource.play)
  let (nf, bf) ← resolveOptional c 17 (e.ownFill.map EventKey.fillIn)
  return { recordIn := first.1, mark := first.2.1, play1 := n1, play2 := n2, fill := nf
           normalised := first.2.2 || b1 || b2 || bf }

/-- An in-point less the preroll; a borrow is refused naming the in-point's operand (R127). -/
def cueOf (c : Counting) (operand preroll n : Nat) : Except Answer Nat :=
  match subFrames c n preroll with
  | (m, false) => .ok m
  | (_, true) => .error { result := .badValue, operand := operand, borrow := true }

/-- The cue point of an optional player. -/
def optionalCue (c : Counting) (operand preroll : Nat) : Option Nat → Except Answer (Option Nat)
  | none => .ok none
  | some n =>
    match cueOf c operand preroll n with
    | .ok m => .ok (some m)
    | .error a => .error a

/-- The out-point of step 5: none for an OPEN length; a wrap is refused (R127). -/
def outPointOf (c : Counting) (recordIn : Nat) : Option Nat → Except Answer (Option Nat)
  | none => .ok none
  | some len =>
    match addFrames c recordIn len with
    | (m, false) => .ok (some m)
    | (_, true) => .error { result := .badValue, operand := 4, wrap := true }

/-- A value is not below the length; an OPEN length makes no test (R128). -/
def notBelowLength (length : Option Nat) (v : Nat) : Bool := length.any (fun n => n ≤ v)

/-- Step 6, tests 1 to 4, and step 7 (R128, R129). -/
def timingFault (e : EventRecord) : Option Answer :=
  if e.transition != .cut && e.source2.isNone then some (.badValue 5)
  else if notBelowLength e.length e.start then some (.badValue 6)
  else if (e.key.any fun k => k.offOffset ≤ k.onOffset) then some (.badValue 22)
  else if (e.key.any fun k => e.length.any (fun n => n < k.offOffset)) then some (.badValue 23)
  else if e.kind == .insert && e.tracks == 0 then some (.badValue 15)
  else if 15 < e.pattern then some (.badValue 8)
  else if 3 < e.curve then some (.badValue 9)
  else none

/-- The effective duration of step 6, test 5 (R128). -/
def effectiveDuration (e : EventRecord) : Nat :=
  match e.transition, e.length with
  | .cut, _ => e.duration
  | _, none => e.duration
  | _, some n => min e.duration (2 * (n - e.start))

/-- An armed player of an optional source. -/
def armedOf (deck : Option DeckNo) (n cue : Option Nat) : Option ArmedDeck :=
  match deck, n, cue with
  | some d, some a, some b => some { deck := d, inPoint := a, cue := b }
  | _, _, _ => none

/-- Steps 5 to 7: cue points, out-point, timing, tables, and the arm results (R127 to R129). -/
def armResultsOf (c : Counting) (recorder : DeckNo) (e : EventRecord) (i : InPoints) :
    Except Answer ArmResults := do
  let rc ← cueOf c 3 e.preroll i.recordIn
  let c1 ← cueOf c 25 e.preroll i.play1
  let c2 ← optionalCue c 27 e.preroll i.play2
  let cf ← optionalCue c 17 e.preroll i.fill
  let op ← outPointOf c i.recordIn e.length
  let res : ArmResults :=
    { recorder := recorder, recordIn := i.recordIn, mark := i.mark, outPoint := op, recorderCue := rc
      source1 := { deck := e.source1.deck, inPoint := i.play1, cue := c1 }
      source2 := armedOf (e.source2.map EventSource.deck) i.play2 c2
      fill := armedOf (e.ownFill.map EventKey.fillDeck) i.fill cf
      duration := effectiveDuration e
      durationClamped := effectiveDuration e != e.duration }
  match timingFault e with
  | some a => throw a
  | none => return res

/-- What the arm validation finds: the mark stack it leaves, and the refusal or the arm results with the
normalised indication. -/
structure ArmVerdict where
  marks : List Mark
  outcome : Except Answer (ArmResults × Bool)

/-- Steps 4 to 7 once steps 1 to 3 have passed. -/
def armFromStep4 (c : Counting) (marks : List Mark) (recorder : DeckNo) (e : EventRecord) : ArmVerdict :=
  match resolveRecordIn c marks e with
  | (.error a, left) => { marks := left, outcome := .error a }
  | (.ok first, left) =>
    { marks := left
      outcome := do
        let i ← resolvePlays c e first
        let r ← armResultsOf c recorder e i
        return (r, i.normalised) }

/-- The arm validation of an event, its seven steps in order (R125 to R129). -/
def Part.validateArm (p : Part) (e : EventRecord) : ArmVerdict :=
  match p.recorder with
  | none => { marks := p.tcu.marks, outcome := .error .state }
  | some r =>
    match p.playersFault e with
    | some a => { marks := p.tcu.marks, outcome := .error a }
    | none =>
      match p.keyInputFault e with
      | some a => { marks := p.tcu.marks, outcome := .error a }
      | none => armFromStep4 p.counting p.tcu.marks r e

/-- The slot after a successful arm (R119, R129). -/
def Slot.armedWith (s : Slot) (r : ArmResults) : Slot :=
  { s with state := .armed, arm := some r, run := .fresh }

/-- Arm a slot's event: the part with any mark spent and, where the arm is made, the slot ARMED; and the
answer (R124, R129). -/
def Part.armEvent (p : Part) (n : SlotNo) (e : EventRecord) : Part × Answer :=
  let v := p.validateArm e
  let q := p.modTcu (fun t => { t with marks := v.marks })
  match v.outcome with
  | .error a => (q, { a with notRestored := decide (v.marks.length < p.tcu.marks.length) })
  | .ok (r, nrm) =>
    (q.modSlot n (·.armedWith r),
     { Answer.accepted with normalised := nrm, payload := armBytes p.counting r })

/-- The arm of one slot, after the slot check of R124. -/
def Part.armSlot (p : Part) (n : SlotNo) : Part × Answer :=
  match (p.slot n).state, (p.slot n).event with
  | .active, _ => (p, .busy)
  | .empty, _ => (p, .state)
  | .armed, _ => (p, .state)
  | _, none => (p, .state)
  | _, some e => p.armEvent n e

/-! ## Disarming (R130) -/

/-- A disarm: an ARMED slot returns to LOADED and its arm results become absent. -/
def Slot.disarmed (s : Slot) : Slot :=
  match s.state with
  | .armed => { s with state := .loaded, arm := none }
  | _ => s

/-- Every ARMED slot is disarmed. -/
def Part.disarmAll (p : Part) : Part :=
  p.modEds (fun e => { e with slots := e.slots.map Slot.disarmed })

/-- Counts and positions of a counting before a change become absent in every slot (R150). -/
def Slot.withoutCounts (s : Slot) : Slot :=
  { s with arm := none, run := { s.run with recordOn := none, recordOff := none } }

/-- A slot's event names a deck as background or fill (R82). -/
def Slot.names (s : Slot) (d : DeckNo) : Bool :=
  match s.event with
  | some e => e.hasBackground d || e.hasFill d
  | none => false

/-- An ARMED slot depends on deck d; `recorder` says that d held RECORDER before or holds it after (R82). -/
def Slot.dependsOn (s : Slot) (d : DeckNo) (recorder : Bool) : Bool :=
  s.state == .armed && (s.names d || recorder)

end Sys2Proof.Machine
end

