-- ==== Sys2Proof/Machine/ChaseControl.lean ====
section
/-! DEFINITION. Starting and stopping a chase (section 7.2, R106, R107). -/

namespace Sys2Proof.Machine

open Sys2Proof

/-- A deck is chasing while its chase state is PULL_IN, LOCKED or LOST (R105). -/
def Part.chasing (p : Part) (d : DeckNo) : Bool := (p.deck d).chase.state != .off

/-- A chase start with the deck's in-point and the recorder's, in frames (R106). -/
def Part.chaseStart (p : Part) (d : DeckNo) (playerIn recorderIn : Nat) : Part :=
  ((p.modDeck d (fun k => { k with chase := { state := .pullIn, error := 0, lockCount := 0, speed := 256 } })).modChase d
    (fun _ => { playerIn := 2 * playerIn, recorderIn := 2 * recorderIn, pending := false })).wantSpeed d 256

/-- Set the CHU's sync watch (R115). -/
def Part.setSyncWatch (p : Part) (b : Bool) : Part := { p with chu := { p.chu with syncWatch := b } }

/-- A chase stop for one deck (R107). -/
def Part.chaseStop (p : Part) (d : DeckNo) : Part :=
  (((p.modDeck d (fun k => { k with chase := { state := .off, error := 0, lockCount := 0, speed := 256 } })).modChase d
    (fun o => { o with pending := false })).wantSpeed d 256).setSyncWatch false

/-- A chase stop for every chasing deck (R107). -/
def Part.chaseStopAll (p : Part) : Part :=
  p.each allDecks (fun d q => if q.chasing d then q.chaseStop d else q)

end Sys2Proof.Machine
end

