-- ==== Sys2Proof/Machine/Mixer.lean ====
section
/-! DEFINITION. The MEP's parameter sets: curves and levels (R165, R171), the ownership of the preload
(R158, R159), and the take of the active set with what it hands on (R155, R157, R172). -/

namespace Sys2Proof.Machine

open Sys2Proof

/-- The source that shows an input. -/
def sourceOfInput : Input → Source
  | .a => .a
  | .b => .b
  | .c => .c

/-- The input that a source shows, if it shows one. -/
def Source.input : Source → Option Input
  | .a => some .a
  | .b => some .b
  | .c => some .c
  | .black => none
  | .bars => none

/-! ## Curves (R165) -/

/-- A curve evaluated for `progress`, 0 to 4,096: straight between points, rounded toward c[i]. -/
def curveAt (curve : Table Nat 17) (progress : Nat) : Nat :=
  if h : progress < 4096 then
    let i : Nat := progress / 256
    let lo := curve.get ⟨i, by omega⟩
    let hi := curve.get ⟨i + 1, by omega⟩
    (lo + Int.tdiv (((hi : Int) - lo) * (progress % 256 : Nat)) 256).toNat
  else curve.get 16

/-- The level formed from P′ for a MIX or a WIPE (R165). -/
def levelOf : Transition → Nat → Nat
  | .wipe, p' => p'
  | _, p' => (p' + 2) / 4

/-- The level at which background 2 is shown in full. -/
def fullLevel : Transition → Nat
  | .wipe => 4096
  | _ => 1024

/-- The curve of a number in 0 to 3. -/
def Mep.curve (m : Mep) (n : Nat) : Table Nat 17 :=
  m.curves.get (if h : n < 4 then ⟨n, h⟩ else 0)

/-! ## Auto-take (R170, R171) -/

/-- The moves at the end of a take: background 2 becomes background 1, level 0, owner HOST. -/
def Mep.endTake (m : Mep) : Mep :=
  { m with preload := { m.preload with bg1 := m.preload.bg2, level := 0 }, take := none, owner := .host }

/-- The counter has passed the take's duration (R171). -/
def Take.over (t : Take) : Bool :=
  match t.kind with
  | .cut => decide (1 ≤ t.count)
  | _ => decide (t.duration < t.count)

/-- End the take if its counter has passed its duration. -/
def Mep.endTakeIfOver (m : Mep) : Mep :=
  match m.owner, m.take with
  | .auto, some t => if t.over then m.endTake else m
  | _, _ => m

/-- The level that the auto-take counter writes at count n (R171). -/
def Mep.takeLevel (m : Mep) (t : Take) : Nat :=
  match t.kind with
  | .cut => 1024
  | k => levelOf k (curveAt (m.curves.get t.curve) (t.count * 4096 / t.duration))

/-- One field start of a running take: count, then write the level or end (R171). -/
def Mep.advanceTake (m : Mep) : Mep :=
  match m.owner, m.take with
  | .auto, some t =>
    let t' := { t with count := t.count + 1 }
    if t'.over then { m with take := some t' }.endTake
    else { m with take := some t', preload := { m.preload with level := m.takeLevel t' } }
  | _, _ => m

/-! ## Ownership of the preload (R158, R159) -/

/-- The EDS's claim: a running take is completed, the host set is held, the owner is EDS. -/
def Mep.claim (m : Mep) : Mep :=
  let m' := match m.owner with
    | .auto => m.endTake
    | _ => m
  { m' with held := m'.preload, owner := .eds }

/-- The EDS's release: the held host set back, level 0, owner HOST; nothing unless the EDS owns. -/
def Mep.release (m : Mep) : Mep :=
  match m.owner with
  | .eds => { m with preload := { m.held with level := 0 }, owner := .host }
  | _ => m

/-! ## The take (R155, R157, R172) -/

/-- The substitution decision for an input (R155). -/
def Part.substituteOf (p : Part) (i : Input) : Option Policy :=
  if (p.siu i).state = .inWindow then none else some (p.siu i).policy

/-- The active set taken at the first active line (R157). -/
def Part.takenSet (p : Part) : ActiveSet :=
  { params := p.mep.preload, owner := p.mep.owner
    pattern := p.mep.patterns.get p.mep.preload.pattern
    subst := ⟨[p.substituteOf .a, p.substituteOf .b, p.substituteOf .c], rfl⟩
    std := p.rtu.std
    onAir := p.rtu.lock == .locked || p.rtu.lock == .freewheel }

/-- An input is substituted in an active set. -/
def ActiveSet.substituted (a : ActiveSet) (i : Input) : Bool := (a.subst.get i.idx).isSome

/-- An input is in use in an active set (R172): named by a background, or by fill or key input while
the key is on. -/
def ActiveSet.uses (a : ActiveSet) (i : Input) : Bool :=
  a.params.bg1.input == some i || a.params.bg2.input == some i ||
    (a.params.keyOn && (a.params.fill.input == some i || a.params.keyInput == i))

/-- The source substituted signal (R172). -/
def ActiveSet.reportsSubstitution (a : ActiveSet) : Bool :=
  a.owner == .eds && allInputs.any (fun i => a.uses i && a.substituted i)

/-- An input contributes to the active PGM set (R172). -/
def ActiveSet.contributes (a : ActiveSet) (i : Input) : Bool :=
  a.onAir && !a.substituted i &&
    ((a.params.bg1.input == some i && decide (a.params.level < fullLevel a.params.transition))
      || (a.params.bg2.input == some i && decide (0 < a.params.level))
      || (a.params.fill.input == some i && a.params.keyOn))

/-- The MEP takes the active set and hands the contributions to the GTU and a substitution to the EDS,
which marks the active slot (R143, R157, R172). -/
def Part.takeActiveSet (p : Part) : Part :=
  let a := p.takenSet
  let q := p.modMep (fun m => { m with
    active := a
    contrib := ⟨[a.contributes .a, a.contributes .b, a.contributes .c], rfl⟩ })
  match a.reportsSubstitution, p.eds.active with
  | true, some n => q.modSlot n (fun s => { s with run := { s.run with substituted := true } })
  | _, _ => q

end Sys2Proof.Machine
end

