-- ==== Sys2Proof/Machine/Engine.lean ====
section
/-! DEFINITION. The Edit Sequencer's moves (chapter 9): how an event ends, starts, cues, holds, rolls,
records and passes on, and what the EDS does on the signals of its neighbours. -/

namespace Sys2Proof.Machine

open Sys2Proof

/-- The entry into IDLE; `keepLatch` at the entry within the move of R145 (R132). -/
def Part.enterIdle (p : Part) (keepLatch : Bool) : Part :=
  p.modEds (fun e => { e with
    phase := .idle, active := none, stopRequest := false, holdWaiting := false
    latch := e.latch && keepLatch, guardRunning := false, guardCount := 0, cues := .replicate 4 none })

/-- The list ends: LIST_END, and the engine enters IDLE. -/
def Part.endList (p : Part) : Part := (p.raise .listEnd).enterIdle false

/-- A running guard stops and its count is discarded (R149). -/
def Part.stopGuard (p : Part) : Part :=
  p.modEds (fun e => { e with guardRunning := false, guardCount := 0 })

/-- Write the wanted transport STILL to each deck of the active event. -/
def Part.stillAll (p : Part) : Part := p.each p.eventDecks (fun d q => q.wantTransport d .still)

/-- Write the wanted record level OFF to the recorder's port. -/
def Part.recordOff (p : Part) : Part :=
  match p.recorder with
  | some d => p.wantRecordOff d
  | none => p

/-- The active slot takes its final state and reason. -/
def Part.closeSlot (p : Part) (st : SlotState) (r : Reason) : Part :=
  match p.eds.active with
  | some n => p.modSlot n (fun s => { s with state := st, run := { s.run with reason := r } })
  | none => p

/-- Steps 1 to 5 of R147 without the notice: record OFF, decks STILL, chase stopped, preload released,
the slot in its final state. -/
def Part.closeEvent (p : Part) (st : SlotState) (r : Reason) : Part :=
  (((p.recordOff.stillAll.setSyncWatch false).chaseStopAll).modMep Mep.release).closeSlot st r

/-- The active event fails (R147); with no event active, nothing happens. -/
def Part.failEvent (p : Part) (r : Reason) : Part :=
  if p.eventActive then ((p.closeEvent .failed r).raise .eventFailed).disarmAll.endList else p

/-- The active event is aborted (R147, R148). -/
def Part.abortEvent (p : Part) (r : Reason) : Part :=
  if p.eventActive then (p.closeEvent .aborted r).endList else p

/-- The engine reset: the abort without a notice, every ARMED slot disarmed, IDLE (R151). -/
def Part.resetEngine (p : Part) : Part :=
  let q := if p.eventActive then p.closeEvent .aborted .engineReset else p
  q.disarmAll.enterIdle false

/-! ## Starting (R133, R134) -/

/-- The cue point of a deck of the active event. -/
def Part.cuePoint (p : Part) (a : ArmResults) (d : DeckNo) : Option Nat :=
  if (p.deck d).role = .recorder then some a.recorderCue
  else if a.source1.deck = d then some a.source1.cue
  else
    match a.source2, a.fill with
    | some s, f => if s.deck = d then some s.cue else (f.bind fun x => if x.deck = d then some x.cue else none)
    | none, some x => if x.deck = d then some x.cue else none
    | none, none => none

/-- The in-point frame of a player of the active event: its background entry's first, else the fill's
(R106). -/
def ArmResults.inPointOf (a : ArmResults) (d : DeckNo) : Option Nat :=
  if a.source1.deck = d then some a.source1.inPoint
  else
    match a.source2, a.fill with
    | some s, f => if s.deck = d then some s.inPoint else (f.bind fun x => if x.deck = d then some x.inPoint else none)
    | none, some x => if x.deck = d then some x.inPoint else none
    | none, none => none

/-- Field starts in a second of cue timeout (R134). -/
def cueRate : Standard → Nat
  | .sys30 => 60
  | .sys25 => 50

/-- Write one deck's cue record. -/
def Part.setCue (p : Part) (d : DeckNo) (c : CueRecord) : Part :=
  p.modEds (fun e => { e with cues := e.cues.set d (some c) })

/-- Step 4 of R134 for one deck: CUE_TO its cue point with a resend, and a fresh cue record. -/
def Part.giveCue (p : Part) (a : ArmResults) (d : DeckNo) : Part :=
  match p.cuePoint a d with
  | some n => (p.wantTransportResent d (.cueTo n)).setCue d
      { state := .waiting, misses := 0, timer := (p.deck d).params.timeout * cueRate p.rtu.std }
  | none => p

/-- The reason for which a deck's line state fails a start (R134). -/
def lineFault : LineState → Option Reason
  | .inLocal => some .deckLocal
  | .absent => some .deckLost
  | _ => none

/-- The first deck of the active event whose line state fails the start, the lower number first. -/
def Part.startFault (p : Part) : Option Reason := p.eventDecks.findSome? (fun d => lineFault (p.deck d).line)

/-- Steps 1 and 2 of R134: the slot becomes ACTIVE in CUE, direct commands drop, the guard stops. -/
def Part.activate (p : Part) (n : SlotNo) (a : ArmResults) : Part :=
  let q := (p.modSlot n (fun s => { s with state := .active })).modEds (fun e => { e with
    active := some n, cursor := n, phase := .cue, progress := 0, outPoint := a.outPoint
    guardRunning := false, guardCount := 0 })
  q.each q.eventDecks (fun d r => r.dropDirect d)

/-- An event is started from IDLE at an ARMED slot (R134); the cursor stands on the slot. -/
def Part.startEvent (p : Part) (n : SlotNo) : Part :=
  match (p.slot n).arm with
  | none => p
  | some a =>
    let q := p.activate n a
    match q.startFault with
    | some r => q.failEvent r
    | none => q.each q.eventDecks (fun d r => r.giveCue a d)

/-! ## The end of an event and the cursor (R145) -/

/-- Put the cursor on a slot. -/
def Part.setCursor (p : Part) (n : SlotNo) : Part := p.modEds (fun e => { e with cursor := n })

/-- The cursor arrives at slot `n`; `fuel` slots may still be passed (R145). -/
def cursorArrives : Nat → Nat → Part → Part
  | 0, _, p => (p.setCursor 63).endList
  | fuel + 1, n, p =>
    match slotOf n with
    | none => (p.setCursor 63).endList
    | some k =>
      match (p.slot k).state with
      | .empty => cursorArrives fuel (n + 1) p
      | .armed => p.startEvent k
      | _ =>
        match p.armSlot k with
        | (q, a) => if a.result = .accepted then q.startEvent k else (q.setCursor k).endList

/-- The slot after this one; 63 stays 63. -/
def nextSlot (n : SlotNo) : SlotNo := if h : n.val + 1 < 64 then ⟨n.val + 1, h⟩ else n

/-- Step 4 of R145: the list ends, or the engine enters IDLE and the cursor arrives at the next slot. -/
def Part.moveOn (p : Part) (n : SlotNo) : Part :=
  if p.eds.stopRequest || n.val == 63 then (p.setCursor (nextSlot n)).endList
  else cursorArrives 64 (n.val + 1) (p.enterIdle true)

/-- The postroll count has run out: the event ends as DONE (R145). -/
def Part.endPostroll (p : Part) : Part :=
  match p.eds.active with
  | none => p
  | some n =>
    ((((p.stillAll.chaseStopAll).modMep Mep.release).closeSlot .done .noReason).raise .eventDone).moveOn n

/-- The entry to POSTROLL; with a count of 0 the event ends at once (R145). -/
def Part.enterPostroll (p : Part) : Part :=
  match p.activeEvent with
  | none => p
  | some e =>
    let q := ((p.setSyncWatch false).stopGuard).modEds
      (fun x => { x with phase := .postroll, postroll := 2 * e.postroll })
    if e.postroll = 0 then q.endPostroll else q

/-! ## Roll (R139, R140) -/

/-- The source that shows a deck's video input. -/
def Part.deckSource (p : Part) (d : DeckNo) : Source :=
  match (p.deck d).input with
  | some i => sourceOfInput i
  | none => .black

/-- The preload that the EDS writes for the roll (R139, step 2). -/
def Part.rollSet (p : Part) (e : EventRecord) (s : ParamSet) : ParamSet :=
  let base : ParamSet := { s with
    bg1 := p.deckSource e.source1.deck
    bg2 := p.deckSource (e.source2.map EventSource.deck |>.getD e.source1.deck)
    transition := e.transition, pattern := if h : e.pattern < 16 then ⟨e.pattern, h⟩ else 0
    reverse := e.reverse, softness := e.softness, level := 0, keyOn := false }
  match e.key with
  | some k => { base with fill := p.deckSource k.fillDeck, keyInput := k.keyInput, clip := k.clip
                          gain := k.gain, invert := k.invert }
  | none => base

/-- The largest play lead among the decks of the active event (R139). -/
def Part.largestLead (p : Part) : Nat :=
  p.eventDecks.foldl (fun a d => max a (p.deck d).params.playLead) 0

/-- The entry to ROLL (R139). -/
def Part.enterRoll (p : Part) : Part :=
  match p.activeEvent with
  | none => p
  | some e =>
    (p.modMep (fun m => let c := m.claim; { c with preload := p.rollSet e c.preload })).modEds
      (fun x => { x with
        phase := .roll, holdWaiting := false, progress := 0, cues := .replicate 4 none
        rollField := (p.rtu.fieldCount + 2 + p.largestLead) % Config.countModulus })

/-- A deck's PLAY falls due in the field in progress (R140). -/
def Part.playDue (p : Part) (d : DeckNo) : Bool :=
  p.eds.phase == .roll && p.inActiveEvent d &&
    (p.eds.rollField + Config.countModulus - (p.deck d).params.playLead) % Config.countModulus
      == p.rtu.fieldCount

/-- Write PLAY for a deck whose PLAY is due, and start a player's chase (R140, R106). -/
def Part.rollPlay (p : Part) (d : DeckNo) : Part :=
  if p.playDue d then
    let q := p.wantTransport d .play
    if (p.deck d).role = .recorder then q
    else
      match p.activeArm with
      | some a =>
        match a.inPointOf d with
        | some n => q.chaseStart d n a.recordIn
        | none => q
      | none => q
  else p

/-! ## Hold (R137, R138) -/

/-- The entry to HOLD: a latched release is consumed, else the decks are wanted STILL (R138). -/
def Part.enterHold (p : Part) : Part :=
  if p.eds.latch then (p.modEds (fun e => { e with phase := .hold, latch := false })).enterRoll
  else ((p.stillAll).modEds (fun e => { e with phase := .hold, holdWaiting := true })).raise .holdWaiting

/-- Every deck of the active event has reached cue. -/
def Part.allReached (p : Part) : Bool :=
  p.eventDecks.all (fun d =>
    match p.eds.cues.get d with
    | some c => c.state == .reached
    | none => false)

/-- The move out of CUE, made while the RTU is LOCKED and every deck has reached cue (R137). -/
def Part.leaveCue (p : Part) : Part :=
  if p.eds.phase = .cue ∧ p.rtu.lock = .locked ∧ p.allReached = true then
    match p.activeEvent with
    | some e => if e.hold = .beforeRoll then p.enterHold else p.enterRoll
    | none => p
  else p

/-- The move out of HOLD, made while the RTU is LOCKED and a release is latched (R137, R138). -/
def Part.leaveHold (p : Part) : Part :=
  if p.eds.phase = .hold ∧ p.rtu.lock = .locked ∧ p.eds.latch = true then
    (p.modEds (fun e => { e with latch := false, holdWaiting := false })).enterRoll
  else p

/-- A release: the latch is set, and consumed at once while the engine waits in HOLD (R138). -/
def Part.takeRelease (p : Part) : Part := (p.modEds (fun e => { e with latch := true })).leaveHold

/-! ## Cue (R135, R136) -/

/-- Distance of two frame counts, the nearer way round (R135). -/
def frameDistance (c : Counting) (a b : Nat) : Nat :=
  min ((((a : Int) - b) % c.dayFrames).toNat) ((((b : Int) - a) % c.dayFrames).toNat)

/-- A reply of DONE to the CUE_TO of a deck's cue point (R135). -/
def cueTaken (frame : Frame) (refused : Bool) (point : Nat) : Bool :=
  match frame with
  | .cueTo n _ => !refused && n == point
  | _ => false

/-- The judgement of a deck's cue in state TAKEN (R135). -/
def Part.judgeCue (p : Part) (d : DeckNo) (point : Nat) (c : CueRecord) : Part :=
  let k := p.deck d
  if k.transport = .still ∧ k.position.valid = true then
    if frameDistance p.counting (k.position.position / 2) point ≤ k.params.tolerance then
      (p.setCue d { c with state := .reached }).leaveCue
    else if c.misses = 0 then
      (p.wantTransportResent d (.cueTo point)).setCue d { c with state := .waiting, misses := 1 }
    else p.failEvent .cueMiss
  else p.setCue d c

/-- The EDS judges a deck's cue at its deck reported signal (R135). -/
def Part.cueReport (p : Part) (d : DeckNo) (frame : Frame) (refused : Bool) : Part :=
  match p.eds.phase, p.eds.cues.get d, p.activeArm with
  | .cue, some c, some a =>
    match p.cuePoint a d with
    | none => p
    | some point =>
      match c.state with
      | .reached => p
      | .taken => p.judgeCue d point c
      | .waiting => if cueTaken frame refused point then p.judgeCue d point { c with state := .taken } else p
  | _, _, _ => p

/-- A deck's cue timer stands at 0 before the deck has reached cue (R136). -/
def Part.cueExpired (p : Part) (d : DeckNo) : Bool :=
  p.eds.phase == .cue &&
    match p.eds.cues.get d with
    | some c => c.state != .reached && c.timer == 0
    | none => false

/-- The event fails with CUE_TIMEOUT if the deck's timer has run out (R136). -/
def Part.judgeCueTimer (p : Part) (d : DeckNo) : Part :=
  if p.cueExpired d then p.failEvent .cueTimeout else p

/-- A cue timer counts one field start unless its deck has reached cue (R136). -/
def CueRecord.ticked (c : CueRecord) : CueRecord :=
  match c.state with
  | .reached => c
  | _ => { c with timer := c.timer - 1 }

/-- The field start work on the cue timers (R136). -/
def Part.tickCueTimers (p : Part) : Part :=
  if p.eds.phase = .cue then
    (p.modEds (fun e => { e with cues := e.cues.map (Option.map CueRecord.ticked) })).each allDecks
      (fun d q => q.judgeCueTimer d)
  else p

/-! ## The record-on decision and the record span (R141 to R144) -/

/-- A position has reached a point: sym(position - point) is not negative (R141). -/
def reached (c : Counting) (position : Nat) (point : Int) : Bool := decide (0 ≤ c.sym (position - point))

/-- The failure of the record-on decision, its tests in order (R141). -/
def Part.recordOnFault (p : Part) (r : DeckNo) (e : EventRecord) : Option Reason :=
  if p.rtu.lock ≠ .locked then some .refLost
  else
    match (p.deck r).line with
    | .inLocal => some .deckLocal
    | .absent => some .deckLost
    | .unknown => some .deckLost
    | .online =>
      if e.kind = .insert ∧ (p.deck r).inhibit = true then some .recordRefused
      else if p.eventDecks.all (fun d => (p.deck d).role == .recorder || (p.deck d).chase.state == .locked)
      then none
      else some .notLocked

/-- The record-on decision (R141). -/
def Part.decideRecordOn (p : Part) (r : DeckNo) (e : EventRecord) : Part :=
  match p.recordOnFault r e with
  | some reason => p.failEvent reason
  | none =>
    let q := if e.kind = .insert then p.wantRecordOn r e.tracks else p
    (q.modEds (fun x => { x with phase := .record })).setSyncWatch true

/-- The progress P computed at n fields from the start field (R143). -/
def progressAt (t : Transition) (n : Int) (d : Nat) : Nat :=
  if n < 0 then 0
  else
    match t with
    | .cut => 4096
    | _ => if n ≤ d then n.toNat * 4096 / d else 4096

/-- The level written at n fields from the start field, for the progress used (R143, R165). -/
def levelAt (t : Transition) (curve : Table Nat 17) (n : Int) (d used : Nat) : Nat :=
  match t with
  | .cut => if used = 4096 then 1024 else 0
  | k =>
    if d < n then fullLevel k
    else if n < 0 ∧ used = 0 then 0
    else levelOf k (curveAt curve used)

/-- The key is on in the preload at this offset from the in-point (R143). -/
def keyOnAt (e : EventRecord) (offset : Int) : Bool :=
  match e.key with
  | some k => decide (2 * (k.onOffset : Int) ≤ offset ∧ offset < 2 * k.offOffset)
  | none => false

/-- The EDS writes the preload for the field that a recorder advance opens (R143). -/
def Part.writeTransition (p : Part) (position : Nat) (e : EventRecord) (a : ArmResults) : Part :=
  let c := p.counting
  let n := c.sym (position - 2 * ((a.recordIn : Int) + e.start))
  let used := max (progressAt e.transition n a.duration) p.eds.progress
  let q := p.modEds (fun x => { x with progress := used })
  q.modMep (fun m => { m with preload := { m.preload with
    level := levelAt e.transition (m.curve e.curve) n a.duration used
    keyOn := keyOnAt e (c.sym (position - 2 * (a.recordIn : Int))) } })

/-- The record-off point and the out-point, at a recorder advance in RECORD (R144). An out-point that is reached has its
record-off point reached with it (log entry 30). -/
def Part.spanPoints (p : Part) (r : DeckNo) (position : Nat) (e : EventRecord) : Part :=
  match p.eds.outPoint with
  | none => p
  | some o =>
    let lead := (p.deck r).params.recordLead
    let out := reached p.counting position (2 * (o : Int))
    let q := if e.kind = .insert ∧ (reached p.counting position (2 * ((o : Int) - lead)) || out) = true
      then p.wantRecordOff r else p
    if out then q.enterPostroll else q

/-- The EDS acts on the recorder's position advanced signal (R141, R143, R144). -/
def Part.recorderAdvanced (p : Part) (r : DeckNo) : Part :=
  match p.activeEvent, p.activeArm with
  | some e, some a =>
    let position := (p.deck r).position.position
    let q := if p.eds.phase = .roll ∧
        reached p.counting position (2 * ((a.recordIn : Int) - (p.deck r).params.recordLead)) = true
      then p.decideRecordOn r e else p
    match q.eds.phase with
    | .record => (q.writeTransition position e a).spanPoints r position e
    | .postroll => q.writeTransition position e a
    | _ => q
  | _, _ => p

/-- The event in RECORD is OPEN and its out-point is unset (R144). -/
def Part.openEndable (p : Part) : Bool :=
  p.eds.phase == .record && p.eds.outPoint.isNone && (p.activeEvent.any fun e => e.length.isNone)

/-- END_OPEN or a TRIGGER edge ends an OPEN event: its out-point is set and record OFF written (R144). -/
def Part.endOpenEvent (p : Part) : Part :=
  match p.recorder, p.activeEvent with
  | some r, some e =>
    let frame := ((p.deck r).position.position / 2 + (p.deck r).params.recordLead) % p.counting.dayFrames
    let q := p.modEds (fun x => { x with outPoint := some frame })
    if e.kind = .insert then q.wantRecordOff r else q
  | _, _ => p

/-- A GPI TRIGGER edge: the end of an OPEN event, else a release (R138, R144, R174). -/
def Part.takeTrigger (p : Part) : Part := if p.openEndable then p.endOpenEvent else p.takeRelease

/-- The TCU converts the label of a reply of this deck: the counting is settled and the deck has a tape (R64). -/
def Part.convertsReply (p : Part) (d : DeckNo) : Bool := p.tcu.settled && (p.deck d).transport != .noTape

/-- The position that R142 records for a reply to a record frame: the converted label before projection,
plus twice the record lead. Where the TCU converts nothing, since R64 discards the measurement or the label has no
count, the converted position is a free value (log entry 3). -/
def Part.recordedField (p : Part) (d : DeckNo) (label : RawLabel) : Nat :=
  let base := match p.convertsReply d, readLabel p.counting label with
    | true, some (l, _) => labelPosition p.counting l
    | _, _ => Config.unconvertedPosition [label.hh, label.mm, label.ss, label.ff, label.flags]
  (base + 2 * (p.deck d).params.recordLead) % p.counting.day

/-- The EDS reads the recorder's replies to record frames (R142). -/
def Part.recordReport (p : Part) (d : DeckNo) (frame : Frame) (refused : Bool) (label : RawLabel) : Part :=
  match p.eds.active with
  | none => p
  | some n =>
    if (p.deck d).role = .recorder then
      let f := p.recordedField d label
      match frame, refused with
      | .recordOn _, false => p.modSlot n (fun s => { s with run := { s.run with recordOn := some f } })
      | .recordOff, false => p.modSlot n (fun s => { s with run := { s.run with recordOff := some f } })
      | .recordOn _, true => if p.eds.phase = .record then p.failEvent .recordRefused else p
      | _, _ => p
    else p

/-- The deck reported signal (R98, R135, R142). DESIGN CHOICE (log entry 44): the cue is judged before the reply to a
record frame is read. -/
def Part.deckReported (p : Part) (d : DeckNo) (frame : Frame) (refused : Bool) (label : RawLabel) : Part :=
  (p.cueReport d frame refused).recordReport d frame refused label

/-- The postroll count of one field start, and the end when it reaches 0 (R145). -/
def Part.tickPostroll (p : Part) : Part :=
  if p.eds.phase = .postroll then
    let q := p.modEds (fun e => { e with postroll := e.postroll - 1 })
    if q.eds.postroll = 0 then q.endPostroll else q
  else p

/-! ## Signals that fail an event (R146) -/

/-- The phases in which a line state change or a chase loss can fail the event. -/
def Phase.beforePostroll : Phase → Bool
  | .cue => true
  | .hold => true
  | .roll => true
  | .record => true
  | _ => false

/-- ROLL or RECORD. -/
def Phase.running : Phase → Bool
  | .roll => true
  | .record => true
  | _ => false

/-- The line state changed signal (R98, R146). -/
def Part.lineChanged (p : Part) (d : DeckNo) : Part :=
  if p.inActiveEvent d && p.eds.phase.beforePostroll then
    match lineFault (p.deck d).line with
    | some r => p.failEvent r
    | none => p
  else p

/-- The chase lost signal with the reason that its cause gives (R112, R113, R146). -/
def Part.chaseLost (p : Part) (r : Reason) : Part := if p.eds.phase.running then p.failEvent r else p

/-- The sync lost signal (R115, R146). -/
def Part.syncLost (p : Part) : Part := if p.eds.phase = .record then p.failEvent .syncLost else p

/-! ## Reference guard (R149) -/

/-- The guard trips: GUARD_TRIP, and the event fails with REF_LOST. -/
def Part.tripGuard (p : Part) : Part := (p.raise .guardTrip).failEvent .refLost

/-- A running guard's count has reached the limit. -/
def Part.guardDue (p : Part) : Bool :=
  p.eds.guardRunning && decide (p.eds.guardLimit ≤ p.eds.guardCount)

/-- The guard trips if its count has reached the limit. -/
def Part.judgeGuard (p : Part) : Part := if p.guardDue then p.tripGuard else p

/-- The guard's count of one field start, up to 60, and the trip when it reaches the limit. -/
def Part.tickGuard (p : Part) : Part :=
  if p.eds.guardRunning then
    (p.modEds (fun e => { e with guardCount := min 60 (e.guardCount + 1) })).judgeGuard
  else p

/-- The RTU leaves LOCKED: ROLL fails with REF_LOST, RECORD starts the guard (R146, R149). -/
def Part.lockLeft (p : Part) : Part :=
  match p.eds.phase with
  | .roll => p.failEvent .refLost
  | .record => (p.modEds (fun e => { e with guardRunning := true, guardCount := 0 })).judgeGuard
  | _ => p

/-- The RTU enters LOCKED, with or without REF_JUMP: the guard trips or stops (R149), and a move out of
CUE or HOLD that fell due is made (R137). -/
def Part.lockEntered (p : Part) (jump : Bool) : Part :=
  let q := if p.eds.guardRunning then (if jump then p.tripGuard else p.stopGuard) else p
  match q.eds.phase with
  | .cue => q.leaveCue
  | .hold => q.leaveHold
  | _ => q

/-! ## Changes of standard and counting (R150) -/

/-- Counts and recorded fields of every slot become absent. -/
def Part.dropCounts (p : Part) : Part :=
  p.modEds (fun e => { e with slots := e.slots.map Slot.withoutCounts })

/-- The EDS at a standard-change event. -/
def Part.edsStandardChange (p : Part) : Part := ((p.failEvent .standardChange).disarmAll).dropCounts

/-- The EDS at a counting change, with no slot ACTIVE. -/
def Part.edsCountingChange (p : Part) : Part := p.disarmAll.dropCounts

/-! ## All-stop (R103, R148) -/

/-- The all-stop at one port with a role: its direct command drops, STOP is wanted, and of the recorder
record OFF (R103). -/
def Part.portAllStop (p : Part) (d : DeckNo) : Part :=
  match (p.deck d).role with
  | .noRole => p
  | .player => (p.dropDirect d).wantTransport d .stop
  | .recorder => ((p.dropDirect d).wantTransport d .stop).wantRecordOff d

/-- An all-stop: any active event is aborted, then the ports take STOP (R148). -/
def Part.allStop (p : Part) : Part :=
  (p.abortEvent .allStop).each allDecks (fun d q => q.portAllStop d)

end Sys2Proof.Machine
end

