-- ==== Sys2Proof/Machine/Position.lean ====
section
/-! DEFINITION. Tape positions and chase: the chase computation (sections 7.3 to 7.6), the position
records, their advance and the measurements (sections 4.3 to 4.5), and the standard-change event. -/

namespace Sys2Proof.Machine

open Sys2Proof

/-! ## The chase computation (R108 to R115) -/

/-- `round(x / 4)` with halves away from zero (0.6.2). -/
def roundQuarter (x : Int) : Int := if 0 ≤ x then (x + 2) / 4 else -((2 - x) / 4)

/-- The chase error (R109). -/
def chaseError (c : Counting) (player recorder playerIn recorderIn : Nat) : Int :=
  let r := c.sym ((recorder : Int) - recorderIn)
  let target := ((playerIn : Int) + r) % c.day
  c.sym ((player : Int) - target)

/-- The speed demand for an error (R110). -/
def speedLaw (q : ChaseParams) (e : Int) : Int :=
  256 - clampInt (-q.slew) q.slew (roundQuarter (e * q.gain))

/-- The lock judgement of one computation (R111). -/
def lockJudged (q : ChaseParams) (f : FieldId) (e : Int) (k : ChaseItems) : ChaseItems :=
  match k.state with
  | .pullIn =>
    match f with
    | .one =>
      if e = 0 then
        { k with lockCount := min (k.lockCount + 1) q.lockRun
                 state := if q.lockRun ≤ k.lockCount + 1 then .locked else .pullIn }
      else { k with lockCount := 0 }
    | .two => k
  | .locked => if e.natAbs < q.unlock then k else { k with lockCount := 0, state := .pullIn }
  | _ => k

/-- PULL_IN or LOCKED: the states in which a deck's measurements make computations (R108). -/
def ChaseState.computing : ChaseState → Bool
  | .pullIn => true
  | .locked => true
  | _ => false

/-- The deck becomes LOST with the error given; the EDS hears why (R112, R113). -/
def Part.loseChase (p : Part) (d : DeckNo) (e : Int) (r : Reason) : Part :=
  (p.modDeck d (fun k => { k with chase := { k.chase with state := .lost, error := e, lockCount := 0 } })).chaseLost r

/-- One computation for a chasing player against the recorder, in the order of R115. -/
def Part.computeWith (p : Part) (d r : DeckNo) : Part :=
  let o := p.chu.own.get d
  let e := chaseError p.counting (p.deck d).position.position (p.deck r).position.position o.playerIn o.recorderIn
  if p.chu.params.window < e.natAbs then p.loseChase d e .chaseRange
  else
    let v := speedLaw p.chu.params e
    let q := (p.modDeck d (fun k =>
      { k with chase := lockJudged p.chu.params p.rtu.fieldId e { k.chase with error := e, speed := v } })).wantSpeed d v
    if p.chu.syncWatch && decide (p.chu.params.sync < e.natAbs) then q.syncLost else q

/-- A computation is made only with both records valid (R108). -/
def Part.compute (p : Part) (d : DeckNo) : Part :=
  match p.recorder with
  | none => p
  | some r =>
    if (p.deck d).position.valid && (p.deck r).position.valid then p.computeWith d r else p

/-- The next field start is due at this instant: the RTU timing has completed its field (R3), or one that fell due
at the instant of a snap has not been declared (R9). -/
def Rtu.fieldStartDue (r : Rtu) : Bool :=
  r.timing.owes.isSome || decide (Config.fieldLen r.std r.timing.counted ≤ r.timing.elapsed - r.timing.placed)

/-- The position measured signal (R63, R108): a computation at once, or held where a field start has
come and the TCU has not yet made its step. -/
def Part.positionMeasured (p : Part) (d : DeckNo) : Part :=
  if (p.deck d).chase.state.computing then
    if p.rtu.fieldStartDue then p.modChase d (fun o => { o with pending := true }) else p.compute d
  else p

/-- A held computation is made once both records have made the field start step (R108). -/
def Part.computeHeld (p : Part) (d : DeckNo) : Part :=
  if (p.chu.own.get d).pending then
    let q := p.modChase d (fun o => { o with pending := false })
    if (p.deck d).chase.state.computing then q.compute d else q
  else p

/-- One deck is lost to a stale position if it is in PULL_IN or LOCKED (R113). -/
def Part.loseStale (p : Part) (d : DeckNo) : Part :=
  if (p.deck d).chase.state.computing then p.loseChase d (p.deck d).chase.error .positionStale else p

/-- The position invalidated signal with cause STALE: the player itself, or every chasing player where
the recorder went stale, in deck order (R113). -/
def Part.positionStale (p : Part) (d : DeckNo) : Part :=
  if (p.deck d).role = .recorder then p.each allDecks (fun x q => q.loseStale x) else p.loseStale d

/-! ## The field start step of one record (R61, R62) -/

/-- The motion of a transport (R61). -/
def motionOf (t : Transport) (speed : Int) : Int :=
  match t with
  | .play => 256
  | .record => 256
  | .variableSpeed => speed
  | _ => 0

/-- A transport that shuttles. -/
def isShuttle : Transport → Bool
  | .fastFwd => true
  | .rewind => true
  | _ => false

/-- An age counts one field start, stopping at 255. -/
def aged (n : Nat) : Nat := min 255 (n + 1)

/-- The position after `fields` steps of 1/256 field (R62, R65). -/
def moved (day : Nat) (position : Nat) (amount : Int) : Nat := (((position : Int) + amount / 256) % day).toNat

/-- The ages of step 1 of R62, and the motion of R61. -/
def PosRec.agedWith (r : PosRec) (v : Int) : PosRec :=
  { r with age := aged r.age, vitcAge := aged r.vitcAge, deckAge := aged r.deckAge, motion := v }

/-- Step 3 of R62. -/
def PosRec.stepped (r : PosRec) (day : Nat) (v : Int) : PosRec :=
  { r with position := moved day r.position (r.acc + v), acc := (((r.acc : Int) + v) % 256).toNat }

/-- A record becomes invalid with source ESTIMATE (R62). -/
def PosRec.invalidated (r : PosRec) : PosRec := { r with valid := false, source := .estimate }

/-- A valid record whose age exceeds 30 (R62, step 4). -/
def PosRec.stale (r : PosRec) : Bool := r.valid && decide (30 < r.age)

/-- Steps 1 to 3 of R62 for a record of this transport and speed. -/
def PosRec.advanced (r : PosRec) (day : Nat) (t : Transport) (speed : Int) : PosRec :=
  let v := motionOf t speed
  let a := r.agedWith v
  if isShuttle t then { a.invalidated with acc := 0 }
  else if a.valid then a.stepped day v
  else a

/-- Step 4 of R62 and its signal: a stale record becomes invalid with cause STALE. -/
def Part.judgeStale (p : Part) (d : DeckNo) : Part :=
  if (p.deck d).position.stale then
    (p.modDeck d (fun k => { k with position := k.position.invalidated })).positionStale d
  else p

/-- The TCU's field start step for one record, with its signal of an invalidation by cause STALE (R62, R63). -/
def Part.advanceRecord (p : Part) (d : DeckNo) : Part :=
  let k := p.deck d
  (p.modDeck d (fun x => { x with position := x.position.advanced p.counting.day k.transport k.speed })).judgeStale d

/-- The position advanced signal of a valid record of the recorder, to the EDS (R63, R141). -/
def Part.signalAdvance (p : Part) (d : DeckNo) : Part :=
  if (p.deck d).position.valid && (p.deck d).role == .recorder then p.recorderAdvanced d else p

/-! ## Measurements (R64 to R68) -/

/-- Fields elapsed from a field count to the present one (R65). -/
def Rtu.elapsedFields (r : Rtu) (field : Nat) : Nat :=
  (((r.fieldCount : Int) - field) % Config.countModulus).toNat

/-- The record that a measurement replaces (R65, R66, R68). -/
def PosRec.replaced (r : PosRec) (day position elapsed : Nat) (v : Int) (src : PosSource) : PosRec :=
  { r with position := moved day position (v * elapsed), acc := ((v * elapsed) % 256).toNat, valid := true
           age := 0, source := src }

/-- A usable VITC measurement at a deck's record (R65, R67). -/
def Part.useVitc (p : Part) (d : DeckNo) (position field : Nat) : Part :=
  let r : PosRec := { (p.deck d).position with vitcAge := 0 }
  if r.preference = .vitcFirst ∨ 2 < r.deckAge then
    (p.modDeck d (fun k => { k with position := r.replaced p.counting.day position (p.rtu.elapsedFields field) r.motion .vitc })).positionMeasured d
  else p.modDeck d (fun k => { k with position := r })

/-- A VITC measurement for a deck (R51, R64, R65). -/
def Part.vitcMeasurement (p : Part) (d : DeckNo) (x : Reading) : Part :=
  if p.tcu.settled && labelInRange p.counting x.label then
    p.useVitc d (labelPosition p.counting x.label) x.field
  else p

/-- A usable deck-reply measurement at a deck's record (R66, R67). -/
def Part.useDeckReply (p : Part) (d : DeckNo) (position field : Nat) (src : TcSource) : Part :=
  let k := p.deck d
  let r : PosRec := { k.position with deckAge := 0, tcSource := src }
  if r.preference = .deckFirst ∨ 2 < r.vitcAge then
    (p.modDeck d (fun x => { x with position := r.replaced p.counting.day position (p.rtu.elapsedFields field) (motionOf k.transport k.speed) .deck })).positionMeasured d
  else p.modDeck d (fun x => { x with position := r })

/-- A deck-reply measurement, after the reply's transport and speed are in the deck record (R64, R66). -/
def Part.deckMeasurement (p : Part) (d : DeckNo) (label : RawLabel) (src : TcSource) (field : Nat) : Part :=
  if p.convertsReply d then
    match readLabel p.counting label with
    | some (l, _) => p.useDeckReply d (labelPosition p.counting l) field src
    | none => p
  else p

/-! ## Changes of counting (R69, R70, R88) -/

/-- The record after a change of counting. -/
def PosRec.cleared (r : PosRec) : PosRec :=
  { r with position := 0, valid := false, source := .estimate, age := 255, acc := 0, vitcAge := 255, deckAge := 255 }

/-- What a change of counting does to one deck record: the position record is invalidated, a last-sent
CUE_TO becomes UNKNOWN and a pending direct CUE_TO is dropped (R69, R70, R88). -/
def Deck.countingChanged (k : Deck) : Deck :=
  { k with
    position := k.position.cleared
    sent := match k.sent with
      | .cueTo _ => .unknown
      | x => x
    direct := match k.direct with
      | some x => if x.command = .cueTo then none else some x
      | none => none }

/-- The TCU and the DLCs at a change of counting: every record invalidated, the marks emptied. -/
def Part.countingChanged (p : Part) : Part :=
  { p with decks := p.decks.map Deck.countingChanged }.clearMarks

/-- A standard-change event handed to the TCU, the EDS and the DLCs (R13, R14, R69, R88, R150). -/
def Part.standardChangeEvent (p : Part) : Part :=
  (p.countingChanged.modTcu (fun t => { t with settled := false })).edsStandardChange

end Sys2Proof.Machine
end

