-- ==== Sys2Proof/Machine/Port.lean ====
section
/-! DEFINITION. The deck line controllers (chapter 6): the arbiter and the frames it sends, the deadline
and timeouts, and the judgement and use of replies. -/

namespace Sys2Proof.Machine

open Sys2Proof

/-! ## What the port sends (R91, R93, R94) -/

/-- What the arbiter chooses (R94). -/
inductive Item | record | transport | speed | direct | poll
deriving DecidableEq, Repr

/-- The last-sent transport that sending a wanted transport leaves (R93). -/
def Want.sent : Want → Sent
  | .stop => .stop
  | .still => .still
  | .play => .play
  | .cueTo n => .cueTo n

/-- The frame of a wanted transport (R91). -/
def Want.frame (c : Counting) : Want → Frame
  | .stop => .stop
  | .still => .still
  | .play => .play
  | .cueTo n => .cueTo n (frameBytes c n)

/-- The frame of a direct command (R91); a CUE_TO carries its label and that label's count (R93). -/
def Direct.frame (c : Counting) (x : Direct) : Frame :=
  match x.command with
  | .play => .play
  | .stop => .stop
  | .still => .still
  | .fastFwd => .fastFwd
  | .rewind => .rewind
  | .variableSpeed => .variableSpeed x.speed
  | .cueTo =>
    match x.cue with
    | some l => .cueTo (labelCount c l) (formedLabel c l)
    | none => .cueTo 0 zeroLabel
  | .eject => .eject
  | .recordOff => .recordOff

/-- Item 1 of R94: the levels differ; ON goes only to the RECORDER. -/
def Deck.recordDiffers (k : Deck) : Bool :=
  k.sentRecord != some k.wantRecord && (!k.wantRecord || k.role == .recorder)

/-- Item 3 of R94. -/
def Deck.speedDiffers (k : Deck) : Bool :=
  k.want == .play && k.sent == .play && (k.transport == .play || k.transport == .variableSpeed)
    && k.sentSpeed != some k.wantSpeed

/-- The line states in which items 1 to 4 are arbitrated (R94). -/
def LineState.sendsAll : LineState → Bool
  | .unknown => true
  | .online => true
  | _ => false

/-- The first item of R94 that applies. -/
def chosenItem (k : Deck) (q : Port) : Option Item :=
  if k.line.sendsAll && k.recordDiffers then some .record
  else if k.line.sendsAll && !q.directHold && k.sent != k.want.sent then some .transport
  else if k.line.sendsAll && k.speedDiffers then some .speed
  else if k.line.sendsAll && k.direct.isSome then some .direct
  else if q.prescaler = 0 then some .poll
  else none

/-- The frame of the chosen item (R91). -/
def itemFrame (c : Counting) (k : Deck) (q : Port) : Item → Frame
  | .record => if k.wantRecord then .recordOn q.tracks else .recordOff
  | .transport => k.want.frame c
  | .speed => .variableSpeed k.wantSpeed
  | .direct =>
    match k.direct with
    | some x => x.frame c
    | none => .poll
  | .poll => .poll

/-- What sending a frame does to the sent record (R93). -/
def Deck.sentWith (k : Deck) : Frame → Deck
  | .recordOn _ => { k with sentRecord := some true }
  | .recordOff => { k with sentRecord := some false }
  | .stop => { k with sent := .stop, sentSpeed := none }
  | .still => { k with sent := .still, sentSpeed := none }
  | .play => { k with sent := .play, sentSpeed := none }
  | .fastFwd => { k with sent := .fastFwd, sentSpeed := none }
  | .rewind => { k with sent := .rewind, sentSpeed := none }
  | .eject => { k with sent := .eject, sentSpeed := none }
  | .cueTo n _ => { k with sent := .cueTo n, sentSpeed := none }
  | .variableSpeed v => { k with sentSpeed := some v }
  | .poll => k

/-- A direct command that sets the direct hold when it is sent (R93, R102). -/
def DirectCommand.holds : DirectCommand → Bool
  | .variableSpeed => false
  | .recordOff => false
  | _ => true

/-- The direct hold after an item is sent (R93). -/
def holdAfter (k : Deck) (q : Port) : Item → Bool
  | .direct => q.directHold || (k.direct.any fun x => x.command.holds)
  | _ => q.directHold

/-- Every field is polled: the deck is in the active event and its line is not ABSENT (R93, R95). -/
def Part.pollsEveryField (p : Part) (d : DeckNo) : Bool := p.inActiveEvent d && (p.deck d).line != .absent

/-- Start a transaction with an item: sent record, prescaler, transaction, and the frame on the line, or behind one whose
last stop bit is still to come (R89, R92, R93; log entry 38). -/
def Part.sendItem (p : Part) (d : DeckNo) (i : Item) : Part :=
  let k := p.deck d
  let q := p.port d
  let f := itemFrame p.counting k q i
  (p.modDeck d (fun x =>
    let y := x.sentWith f
    match i with
    | .direct => { y with direct := none }
    | _ => y)).modPort d (fun x => { x with
      flight := some { frame := f, field := p.rtu.fieldCount, bytes := [] }
      sending := x.sending ++ [f]
      directHold := holdAfter k q i
      prescaler := if p.pollsEveryField d then 1 else k.params.poll })

/-- The arbitration at a slot line (R94). -/
def Part.arbitrate (p : Part) (d : DeckNo) : Part :=
  if (p.deck d).role = .noRole ∨ (p.port d).flight.isSome = true then p
  else
    match chosenItem (p.deck d) (p.port d) with
    | some i => p.sendItem d i
    | none => p

/-- The count-down of the prescaler at a slot line (R95). -/
def Part.countDown (p : Part) (d : DeckNo) : Part :=
  p.modPort d (fun q =>
    { q with prescaler := (if p.pollsEveryField d then min q.prescaler 1 else q.prescaler) - 1 })

/-! ## Timeouts (R100) -/

/-- The deck record at a timeout. -/
def Deck.timedOut (k : Deck) : Deck :=
  { k with
    timeouts := min 8 (k.timeouts + 1)
    line := if k.timeouts + 1 < 8 then k.line else .absent }

/-- The notices of a timeout. -/
def Part.timeoutNotices (p : Part) (before after : LineState) : Part :=
  if before = .absent then p
  else if after = .absent then (p.raise .deckTimeout).raise .deckAbsent
  else p.raise .deckTimeout

/-- The transaction in flight ends as a timeout (R100). A frame that is still being sent goes on to its last stop bit
(log entry 38). -/
def Part.timeout (p : Part) (d : DeckNo) : Part :=
  let before := (p.deck d).line
  let q := (p.modPort d (fun x => { x with flight := none })).modDeck d
    (fun k => if k.line = .absent then { k with timeouts := min 8 (k.timeouts + 1) } else k.timedOut)
  let after := (q.deck d).line
  let r := q.timeoutNotices before after
  if after = .absent then (if before = .absent then r else r.lineChanged d)
  else r.modPort d (fun x => { x with prescaler := 1 })

/-- A transaction is in flight at its deadline: the port's first slot line after its sending field. -/
def Part.deadlineReached (p : Part) (d : DeckNo) : Bool :=
  match (p.port d).flight with
  | some f => f.field != p.rtu.fieldCount
  | none => false

/-- The deadline judgement at a slot line (R95, R100). -/
def Part.judgeDeadline (p : Part) (d : DeckNo) : Part := if p.deadlineReached d then p.timeout d else p

/-- The work of a port at its slot line (R94): deadline, count-down, arbitration. -/
def Part.atSlotLine (p : Part) (d : DeckNo) : Part := ((p.judgeDeadline d).countDown d).arbitrate d

/-! ## Good replies (R97 to R99) -/

/-- The reason that a good reply leaves: 0 with DONE; with REFUSED a reason other than 1 to 4 is BAD
(R96, R97). -/
def replyReason (r : DeckReply) : Nat :=
  if r.refused then (if 1 ≤ r.reason ∧ r.reason ≤ 4 then r.reason else 4) else 0

/-- What a refusal puts back in the sent record (R99). -/
def Deck.putBack (k : Deck) : Frame → Deck
  | .recordOn _ => { k with sentRecord := some false }
  | .recordOff => { k with sentRecord := some true }
  | .variableSpeed _ => { k with sentSpeed := none }
  | .poll => k
  | _ => { k with sent := .unknown }

/-- The deck record after a good reply, steps 1 to 3 of R97 and the put-back of R99. -/
def Deck.replied (k : Deck) (f : Frame) (r : DeckReply) : Deck :=
  let x := { k with
    timeouts := 0, transport := r.transport, servo := r.servo, inhibit := r.inhibit, isLocal := r.isLocal
    speed := r.speed, lastReply := some { code := f.code, refused := r.refused, reason := replyReason r }
    line := if r.isLocal then .inLocal else .online }
  if r.refused then x.putBack f else x

/-- The notices of a good reply (R97, R99). -/
def Part.replyNotices (p : Part) (before : LineState) (r : DeckReply) : Part :=
  let q := if r.isLocal = true ∧ before ≠ .inLocal then p.raise .deckLocal else p
  if r.refused then q.raise .deckRefused else q

/-- A good reply to the transaction in flight: the writes of R97, then the hand-over of R98. -/
def Part.goodReply (p : Part) (d : DeckNo) (x : Flight) (r : DeckReply) : Part :=
  let before := (p.deck d).line
  let q := (((p.modPort d (fun t => { t with flight := none })).modDeck d (·.replied x.frame r)).replyNotices before r).deckMeasurement
    d r.label r.source x.field
  let s := q.deckReported d x.frame r.refused r.label
  if before = (if r.isLocal then LineState.inLocal else .online) then s else s.lineChanged d

/-- The transaction whose reply the port is taking in: in flight, with the line turned to receive (R89). -/
def Port.receiving (q : Port) : Option Flight := if q.sending = [] then q.flight else none

/-! ## The serial line (R89) -/

/-- The bits of a byte on a deck line, in the order in which they go out: a start bit, eight data bits least significant
first, an odd parity bit, and a stop bit (R89). The stop-bit level is true. -/
def serialBits (b : Byte) : List Bool :=
  false :: (List.range 8).map (fun i => b.getLsbD i) ++ [!oddOnes b, true]

/-- The bits of a frame, its bytes back to back (R89). -/
def Frame.bits (f : Frame) : List Bool := f.bytes.flatMap serialBits

/-- The luma sample periods that a bit lasts at 38,400 baud, in sixteenths: 13,500,000 / 38,400 = 5,625 / 16 (R89). DESIGN
CHOICE (log entry 48): the nominal luma sample period is taken. -/
def bitSixteenths : Nat := 5625

/-- The direction output of a port: at send while a frame is on the line, at receive otherwise (R89). -/
def Port.drives (q : Port) : Bool := !q.sending.isEmpty

/-- The level of a port's transmit line at this instant: the bit of the frame on the line that its time has come to, and
the stop-bit level while there is no frame to send (R89). -/
def Port.transmitLevel (q : Port) : Bool :=
  match q.sending with
  | [] => true
  | f :: _ => (f.bits[16 * q.sent / bitSixteenths]?).getD true

/-- The last stop bit of the frame on the line ends at this instant (R89; log entry 48). -/
def Port.sendEndDue (q : Port) : Bool :=
  match q.sending with
  | [] => false
  | f :: _ => decide (bitSixteenths * f.bits.length ≤ 16 * q.sent)

/-- A luma sample period of the frame on the line (R89). -/
def Port.ticked (q : Port) : Port := if q.drives then { q with sent := q.sent + 1 } else q

/-- The frame on the line ends with its last stop bit. With no frame behind it the line turns to receive, and receiving
begins afresh (R89; log entry 38). -/
def Port.sendEnd (q : Port) : Port :=
  if q.drives then { q with sending := q.sending.tail, sent := 0, incoming := none } else q

end Sys2Proof.Machine
end

