-- ==== Sys2Proof/Machine/Inputs.lean ====
section
/-! DEFINITION. The source input units (chapter 3): timing offset and matched field, the judgement of
input fields, store slips, VITC lines and readings. -/

namespace Sys2Proof.Machine

open Sys2Proof

/-! ## Well-formed fields (R1, R41) -/

/-- A field as received is well-formed of a standard (R1, R41). -/
def fieldWellFormed (o : FieldObs) (std : Standard) : Bool :=
  o.lineLen == Config.lineLen std && o.lines == Config.fieldLines std o.id && o.closing == o.id.other

/-! ## Timing offset (R43) -/

/-- A field timing reference arrives at this count of luma sample periods since the field start, which is the present
count from then on (R3, R8, R43; log entry 8). -/
def Part.arrivingAt (p : Part) (time : Nat) : Part :=
  p.modRtu (fun r => { r with timing := { r.timing with elapsed := time } })

/-- A field start near the present: its time less the present in luma sample periods, the identity and
the count of the field it opens. -/
structure NearStart where
  time : Int
  id : FieldId
  count : Nat
deriving DecidableEq, Repr

/-- The field count after n field starts (R4). -/
def Rtu.countAfter (r : Rtu) (n : Nat) : Nat := (r.fieldCount + n) % Config.countModulus

/-- The field starts before, at and after the present instant, in time order (R3, R43; log entry 22). DEDUCED (log entry
58): a start that is not the next one opens the count that R4 gives it, the present count plus 2 for the start after the
next, though R43 speaks of one more than the present count. -/
def Rtu.nearStarts (r : Rtu) : List NearStart :=
  let t := r.timing
  let next : Int := (Config.fieldLen r.std t.counted : Int) + t.placed - t.elapsed
  let past : List NearStart :=
    (match t.before with
     | some x => [{ time := -((t.elapsed : Int) + x.len), id := x.id, count := r.countAfter (Config.countModulus - 1) }]
     | none => [])
    ++ (if t.opened then [{ time := -(t.elapsed : Int), id := r.fieldId, count := r.fieldCount }] else [])
  past ++
    (match t.owes with
     | some x =>
       [{ time := (t.placed : Int) - t.elapsed, id := x.1, count := r.countAfter 1 },
        { time := next, id := t.counted.other, count := r.countAfter 2 },
        { time := next + Config.fieldLen r.std t.counted.other, id := t.counted, count := r.countAfter 3 }]
     | none =>
       [{ time := next, id := t.counted.other, count := r.countAfter 1 },
        { time := next + Config.fieldLen r.std t.counted.other, id := t.counted, count := r.countAfter 2 }])

/-- The nearer of two field starts; of two equally near, the later one (R43). -/
def nearer (a b : NearStart) : NearStart := if a.time.natAbs < b.time.natAbs then a else b

/-- The nearest field start of an identity (R43). -/
def Rtu.nearestStart (r : Rtu) (f : FieldId) : NearStart :=
  match r.nearStarts.filter (fun n => n.id == f) with
  | n :: rest => rest.foldl nearer n
  | [] => { time := 0, id := f, count := r.fieldCount }

/-- The offset lies in the window of one line either side (R43). -/
def inWindow (std : Standard) (offset : Int) : Bool := decide (offset.natAbs ≤ Config.lineLen std)

/-- The VITC lines held for a standard (R52). -/
def VitcLines.forStd (v : VitcLines) : Standard → Nat × Nat
  | .sys30 => (v.first30, v.second30)
  | .sys25 => (v.first25, v.second25)

/-- A field timing reference of an input: offset and matched field are recorded, the field it opens is
to be judged, and a field that ended before its later VITC line leaves no reading (R41, R43, R50, R52). It is
a line timing reference too, of line 1 (R42). DESIGN CHOICE (log entry 53): a field that it ends exactly at the end of the
later VITC line leaves none either, unless VITC_READING came before. -/
def Siu.atReference (s : Siu) (r : Rtu) (f : FieldId) : Siu :=
  let n := r.nearestStart f
  { s with
    offset := -n.time, matchedField := some n.count, vitcInUse := s.vitc.forStd r.std
    closedJudging := s.judging, judging := true
    reading := if s.formed then s.reading else none, formed := false
    vitcFirst := .notReached, vitcSecond := .notReached, fieldId := f, line := 0, quiet := 0 }

/-! ## Judgements (R44) -/

/-- Enter IN_WINDOW or OUT_OF_WINDOW by the offset. -/
def windowState (std : Standard) (offset : Int) : SiuState := if inWindow std offset then .inWindow else .outOfWindow

/-- The SIU after a well-formed judgement (R44). DESIGN CHOICE (log entry 54): IN_WINDOW and OUT_OF_WINDOW keep the clean
count as it stands, also at the 0 that R45 left there. -/
def Siu.judgedGood (s : Siu) (std : Standard) : Siu :=
  match s.state with
  | .inWindow => { s with state := windowState std s.offset }
  | .outOfWindow => { s with state := windowState std s.offset }
  | _ =>
    if s.clean = 0 then { s with clean := 1 }
    else { s with clean := 2, state := windowState std s.offset }

/-- The SIU after a bad judgement (R41, R44, R50). Where the field that the last reference closed is still to be
judged, it is the one judged: its reading stands, and the field that reference opened stays to be judged (log
entry 18). Otherwise the field in progress is judged: a reading not yet formed will not be. -/
def Siu.judgedBad (s : Siu) : Siu :=
  if s.closedJudging then { s with state := .formatError, clean := 0, closedJudging := false }
  else { s with state := .formatError, clean := 0, judging := false, formed := true
                reading := if s.formed then s.reading else none }

/-- Two long lines of silence judge the field in progress (R42). -/
def Siu.silenced (s : Siu) : Siu := { s with closedJudging := false }.judgedBad

/-- The notice of a change of input state: each entry into OUT_OF_WINDOW, each into FORMAT_ERROR. -/
def Part.inputNotice (p : Part) (before after : SiuState) : Part :=
  if before = after then p
  else
    match after with
    | .outOfWindow => p.raise .inputWindow
    | .formatError => p.raise .inputFormat
    | _ => p

/-- Deliver a reading to the TCU for the deck that holds the input (R51). -/
def Part.deliver (p : Part) (i : Input) (x : Reading) : Part :=
  match p.holder i with
  | some d => p.vitcMeasurement d x
  | none => p

/-- The delivery of the last reading at an entry into IN_WINDOW (R51). -/
def Part.deliverAtEntry (p : Part) (i : Input) (before : SiuState) : Part :=
  match (p.siu i).state, (p.siu i).reading with
  | .inWindow, some x => if before = .inWindow then p else p.deliver i x
  | _, _ => p

/-- An input field judged well-formed (R44, R51). -/
def Part.inputGood (p : Part) (i : Input) : Part :=
  let before := (p.siu i).state
  let q := p.modSiu i (fun s => { s.judgedGood p.rtu.std with closedJudging := false })
  (q.inputNotice before (q.siu i).state).deliverAtEntry i before

/-- An input field judged bad, in the way given (R42, R44). -/
def Part.inputBad (p : Part) (i : Input) (judge : Siu → Siu) : Part :=
  (p.modSiu i judge).inputNotice (p.siu i).state .formatError

/-- A judgement of the input is to be made: of the field in progress or of the one just closed. -/
def Siu.underJudgement (s : Siu) : Bool := s.judging || s.closedJudging

/-- The SIU when a standard takes effect (R45). -/
def Siu.standardTaken (s : Siu) : Siu := { s with clean := 0, judging := false, closedJudging := false }

/-! ## VITC (R49, R50) -/

/-- Cell c of a VITC line. -/
def cellBit (v : BitVec 90) (c : Nat) : Nat := switchCode (v.getLsbD c)

/-- Group g, 1 to 9: its eight data bits, bit 0 first, after the synchronising pair. -/
def vitcGroup (v : BitVec 90) (g : Nat) : Nat :=
  (List.range 8).foldl (fun a i => a + cellBit v (10 * (g - 1) + 2 + i) * 2 ^ i) 0

/-- Every synchronising pair reads 1 then 0. -/
def vitcSync (v : BitVec 90) : Bool :=
  (List.range 9).all (fun k => v.getLsbD (10 * k) && !v.getLsbD (10 * k + 1))

/-- The groups sum to 0 modulo 256. -/
def vitcSum (v : BitVec 90) : Bool :=
  ((List.range 9).foldl (fun a k => a + vitcGroup v (k + 1)) 0) % 256 == 0

/-- The label and drop-frame indication of a VITC line (Table 3-1). -/
def vitcLabel (v : BitVec 90) : Label × Bool :=
  ({ hh := vitcGroup v 8 % 4 * 10 + vitcGroup v 7 % 16
     mm := vitcGroup v 6 % 8 * 10 + vitcGroup v 5 % 16
     ss := vitcGroup v 4 % 8 * 10 + vitcGroup v 3 % 16
     ff := vitcGroup v 2 % 4 * 10 + vitcGroup v 1 % 16
     field := fieldOfBit (vitcGroup v 4 / 8 % 2) },
   vitcGroup v 2 / 4 % 2 == 1)

/-- Every digit is 0 to 9 (R49). -/
def vitcDigits (v : BitVec 90) : Bool := [1, 3, 5, 7].all (fun g => vitcGroup v g % 16 ≤ 9)

/-- What a VITC line reads: none where it fails (R49). -/
def readVitcLine (l : VitcLine) (std : Standard) : Option (Label × Bool) :=
  match l with
  | .notReached => none
  | .cells v =>
    if vitcSync v && vitcSum v && vitcDigits v && labelInRange { std := std, drop := false } (vitcLabel v).1
    then some (vitcLabel v) else none

/-- The cells of a line from its luma samples: cell c is 1 when sample 8·c + 4 lies above 502 (R49). DESIGN CHOICE (log
entry 52): a cell past the end of a line that was cut short reads 0. -/
def cellsOf (luma : List Nat) : BitVec 90 :=
  (List.range 90).foldl (fun a c => if 502 < luma.getD (8 * c + 4) 0 then a ||| (1#90 <<< c) else a) 0

/-- The reading of a field from its first and second VITC line (R50); where both settings name one
line, it is read once. -/
def readingOf (std : Standard) (sameLine : Bool) (first second : VitcLine) : Option (Label × Bool) :=
  match readVitcLine first std with
  | some x => some x
  | none => if sameLine then none else readVitcLine second std

/-- The SIU after a reading is formed or fails to be (R50). -/
def Siu.withReading (s : Siu) (x : Option (Label × Bool)) : Siu :=
  { s with
    formed := true
    reading := match x, s.matchedField with
      | some (l, d), some f => some { label := l, drop := d, field := f }
      | _, _ => none }

/-- The end of the later VITC line: the reading is stored, and delivered while IN_WINDOW (R50, R51). -/
def Part.formReading (p : Part) (i : Input) (first second : VitcLine) : Part :=
  let s := p.siu i
  let x := readingOf p.rtu.std (s.vitcInUse.1 == s.vitcInUse.2) first second
  let q := p.modSiu i (·.withReading x)
  match s.state, (q.siu i).reading with
  | .inWindow, some y => q.deliver i y
  | _, _ => q

end Sys2Proof.Machine
end

