-- ==== Sys2Proof/Machine/Reference.lean ====
section
/-! DEFINITION. The Reference Timing Unit (chapter 1): the judgement of REF fields by lock state, the
lock, the snap, and what the RTU hands on (R1 to R14, R17). -/

namespace Sys2Proof.Machine

open Sys2Proof

/-- The standard of which a REF field is well-formed, if any (R1). -/
def standardOf (o : FieldObs) : Option Standard :=
  if fieldWellFormed o .sys30 then some .sys30
  else if fieldWellFormed o .sys25 then some .sys25
  else none

/-! ## Timing (R3, R9) -/

/-- Luma sample periods of the RTU timing within the field it counts. -/
def Timing.within (t : Timing) : Nat := t.elapsed - t.placed

/-- The present instant is a field start: one has just opened the field in progress, or one is due now
(R8, R10). The identity is the one that field start gives the field it opens. -/
def Rtu.startNow (r : Rtu) : Option FieldId :=
  if r.timing.opened ∧ r.timing.elapsed = 0 then some r.fieldId
  else if r.timing.within = Config.fieldLen r.std r.timing.counted then some r.timing.counted.other
  else none

/-- A reference that opens a field of this identity arrives in step with the RTU timing (R3, R8, R10). -/
def Rtu.agrees (r : Rtu) (f : FieldId) : Bool := r.startNow == some f

/-- The field start that is due at this instant and not yet declared: the identity and the standard of the field it
opens (R3, R8). -/
def Rtu.dueStart (r : Rtu) : Option (FieldId × Standard) :=
  if r.timing.within = Config.fieldLen r.std r.timing.counted then some (r.timing.counted.other, r.std) else none

/-- The RTU timing is placed in step with the REF field that the confirming reference opened; a field start that was
due at that instant is still to be declared (R9). -/
def Timing.snapped (t : Timing) (f : FieldId) (due : Option (FieldId × Standard)) : Timing :=
  { t with placed := t.elapsed, counted := f, owes := due }

/-! ## Entering and leaving LOCKED -/

/-- A standard takes effect (R14), with R45 at the inputs and the standard-change event. -/
def Part.takeStandard (p : Part) (std : Standard) : Part :=
  let q := (p.modRtu (fun r => { r with std := std })).raise .standardChange
  { q with sius := q.sius.map Siu.standardTaken }.standardChangeEvent

/-- Entry to LOCKED handed on: the counting becomes settled (R69), and the EDS acts (R137, R149). -/
def Part.handLocked (p : Part) (jump : Bool) : Part :=
  (p.modTcu (fun t => { t with settled := true })).lockEntered jump

/-- Where the confirming reference coincides with a field start, the field opened there counts as opened
in LOCKED (R18). -/
def Part.countOpened (p : Part) : Part :=
  if p.rtu.timing.opened ∧ p.rtu.timing.elapsed = 0 then p.modPku (fun k => { k with openedLocked := true })
  else p

/-- The RTU enters LOCKED at a confirming reference of this standard, which opens a REF field of this
identity (R8). -/
def Part.enterLocked (p : Part) (std : Standard) (f : FieldId) : Part :=
  let q := p.modRtu (fun r => { r with lock := .locked, run := 0, miss := 0, candidate := none })
  let changed := q.rtu.std != std
  let s := if changed then q.takeStandard std else q
  let jump := changed || !p.rtu.agrees f
  let t := if jump then (s.modRtu (fun r => { r with timing := r.timing.snapped f p.rtu.dueStart })).raise .refJump else s
  (t.countOpened).handLocked jump

/-- A standard change is detected in LOCKED or FREEWHEEL (R13). Leaving LOCKED is handed first. -/
def Part.detectStandard (p : Part) (std : Standard) : Part :=
  let q := (p.modRtu (fun r => { r with lock := .acquire, candidate := some std, run := 1, miss := 0 })).raise .standardChange
  (if p.rtu.lock = .locked then q.lockLeft else q).standardChangeEvent

/-- The RTU enters FREEWHEEL (R11). -/
def Part.enterFreewheel (p : Part) : Part :=
  ((p.modRtu (fun r => { r with lock := .freewheel, run := 0, miss := 0 })).raise .refLost).lockLeft

/-- A miss in LOCKED; the second one loses REF (R10, R11). -/
def Part.countMiss (p : Part) : Part :=
  if p.rtu.miss + 1 < 2 then p.modRtu (fun r => { r with miss := r.miss + 1 }) else p.enterFreewheel

/-! ## Judgements (R6, R7, R10, R12) -/

/-- A REF field judged well-formed of a standard; its closing reference opens a field of identity `f`. -/
def Part.judgeGood (p : Part) (std : Standard) (f : FieldId) : Part :=
  match p.rtu.lock with
  | .noRef => p.modRtu (fun r => { r with lock := .acquire, candidate := some std, run := 1, miss := 0 })
  | .acquire =>
    if p.rtu.run = 0 ∨ p.rtu.candidate ≠ some std then
      p.modRtu (fun r => { r with candidate := some std, run := 1, miss := 0 })
    else if p.rtu.run + 1 < 4 then p.modRtu (fun r => { r with run := r.run + 1, miss := 0 })
    else p.enterLocked std f
  | .locked =>
    if std ≠ p.rtu.std then p.detectStandard std
    else if p.rtu.agrees f then p.modRtu (fun r => { r with miss := 0 })
    else p.countMiss
  | .freewheel =>
    if std ≠ p.rtu.std then p.detectStandard std
    else if p.rtu.run + 1 < 4 then p.modRtu (fun r => { r with run := r.run + 1 })
    else p.enterLocked std f

/-- A bad judgement of a REF field, silence judgements among them (R1, R2, R6, R7, R10, R12). -/
def Part.judgeBad (p : Part) : Part :=
  match p.rtu.lock with
  | .noRef => p
  | .acquire =>
    if p.rtu.miss + 1 < 2 then p.modRtu (fun r => { r with run := 0, miss := r.miss + 1 })
    else p.modRtu (fun r => { r with lock := .noRef, run := 0, miss := 0, candidate := none })
  | .locked => p.countMiss
  | .freewheel => p.modRtu (fun r => { r with run := 0 })

/-- A field timing reference arrives on REF: it opens a REF field, and silence ends (R1, R2). -/
def Part.refReference (p : Part) (f : FieldId) : Part :=
  p.modRtu (fun r => { r with refField := some f, quiet := some 0, silence := none })

/-- The span without a line timing reference after which silence is judged: two lines of 864 luma sample periods (R2,
R42). -/
def silenceSpan : Nat := 2 * 864

/-- A silence judgement is made: the next one is due a longer-field period later, and a span that has reached its end is
judged by it (R2; log entry 46). -/
def Rtu.silenceJudged (r : Rtu) : Rtu :=
  { r with quiet := r.quiet.filter (fun n => decide (n < silenceSpan)), silence := some 0 }

/-- The REF field in progress is judged bad, and none is in progress until the next field timing reference (R1). -/
def Part.refBad (p : Part) : Part := (p.modRtu (fun r => { r with refField := none })).judgeBad

/-- A field timing reference of this identity closes the REF field in progress, which was received as `obs`: the field
is judged with the identity it was opened with (R1). With no REF field in progress there is none to judge. -/
def Part.refClosed (p : Part) (obs : FieldObs) : Part :=
  match p.rtu.refField with
  | none => p.refReference obs.closing
  | some f =>
    match standardOf { obs with id := f } with
    | some std => (p.refReference obs.closing).judgeGood std obs.closing
    | none => (p.refReference obs.closing).judgeBad

end Sys2Proof.Machine
end

