-- ==== Sys2Proof/Machine/FieldWork.lean ====
section
/-! DEFINITION. The field start (R3, R4) and the work of the blocks at it, GPI sampling and edges
(R173, R174), and the resets (R5, R33 to R36). -/

namespace Sys2Proof.Machine

open Sys2Proof

/-! ## Resets -/

/-- Every block at its reset value; the levels at the pins are outside the part. -/
def Part.resetWith (p : Part) (cause : ResetCause) : Part :=
  (Part.reset cause).modGtu (fun g => { g with pins := p.gtu.pins })

/-- A pending RESET_PART FULL is applied at a field start: as the reset line, but the replies being built
become the list to write, and the field is opened by a field start (R5, R26, R36). -/
def Part.applyFullReset (p : Part) : Part :=
  ((p.resetWith .command).modPku (fun k => { k with toWrite := p.pku.building })).modRtu
    (fun r => { r with timing := { r.timing with opened := true } })

/-! ## Console (R173, R174) -/

/-- One sample of a GPI pin: the last sample, and the run count against the accepted level (R173). -/
def Gpi.sampled (g : Gpi) (level : Bool) : Gpi :=
  { g with
    lastSample := level
    run := if level = g.accepted then 0
           else if level = g.lastSample ∨ g.run = 0 then g.run + 1
           else 1 }

/-- The run count has reached D. -/
def Gpi.edgeDue (g : Gpi) : Bool := g.lastSample != g.accepted && decide (g.debounce ≤ g.run)

/-- The accepted level becomes the sample and the run count 0. -/
def Gpi.accept (g : Gpi) : Gpi := { g with accepted := g.lastSample, run := 0 }

/-- The edge just accepted matches the configured edge. -/
def Gpi.matchesEdge (g : Gpi) : Bool :=
  match g.edge with
  | .rising => g.accepted
  | .falling => !g.accepted

/-- What the work of a field start carries: the part, the decks already advanced, and the captures that
wait for their deck's advance, oldest first (R74). -/
structure FieldCtx where
  part : Part
  advanced : List DeckNo
  held : List (DeckNo × Fin 4)

/-- A matching accepted edge is handed on according to the input's role (R174). A capture taken before
its deck's advance is held (R74). -/
def FieldCtx.handEdge (x : FieldCtx) (g : Gpi) (n : Fin 4) : FieldCtx :=
  match g.role with
  | .noRole => x
  | .mark =>
    if g.markDeck ∈ x.advanced then { x with part := x.part.capture g.markDeck n }
    else { x with held := x.held ++ [(g.markDeck, n)] }
  | .trigger => { x with part := x.part.takeTrigger }
  | .allStop => { x with part := x.part.allStop }

/-- Accept a due edge of one input and hand it on (R173, R174). -/
def FieldCtx.judgeEdge (x : FieldCtx) (n : Fin 4) : FieldCtx :=
  let g := x.part.gtu.gpis.get n
  if g.edgeDue then
    let x' := { x with part := x.part.modGtu (fun u => { u with gpis := u.gpis.set n g.accept }) }
    if g.accept.matchesEdge then x'.handEdge g n else x'
  else x

/-! ## The work of a field start -/

/-- Captures held for a deck are judged when its record has advanced (R74). -/
def FieldCtx.releaseHeld (x : FieldCtx) (d : DeckNo) : FieldCtx :=
  { x with
    part := (x.held.filter (fun h => h.1 == d)).foldl (fun q h => q.capture h.1 h.2) x.part
    held := x.held.filter (fun h => h.1 != d) }

/-- A held chase computation is made once the player's and the recorder's records have advanced (R108). -/
def FieldCtx.computeReady (x : FieldCtx) (d : DeckNo) : FieldCtx :=
  if d ∈ x.advanced ∧ (x.part.recorder.all fun r => decide (r ∈ x.advanced)) = true then
    { x with part := x.part.computeHeld d }
  else x

/-- One thing that waits for the advance of deck d's record, done now that it has advanced (R74, R108, R141). -/
def FieldCtx.react (x : FieldCtx) (d : DeckNo) : Reaction → FieldCtx
  | .sequencer => { x with part := x.part.signalAdvance d }
  | .captures => x.releaseHeld d
  | .chase e => x.computeReady e

/-- Keep the first occurrence of each thing, two things being one where `key` says so. -/
def withoutRepeats {α : Type} [DecidableEq α] (key : α → α) : List α → List α → List α
  | _, [] => []
  | seen, w :: ws =>
    if key w ∈ seen then withoutRepeats key seen ws else w :: withoutRepeats key (key w :: seen) ws

/-- What waits for an advance, in the order that the model takes where none is asked for. -/
def defaultReactions : List Reaction := [.sequencer, .captures, .chase 0, .chase 1, .chase 2, .chase 3]

/-- The order of what waits for an advance: what is asked for first, then the rest, each once. -/
def reactionOrder (first : List Reaction) : List Reaction := withoutRepeats id [] (first ++ defaultReactions)

/-- One piece of work. `began` is the phase when the field start was declared: a timer that was set at
this same field start is not counted by it. -/
def FieldCtx.work (began : Phase) (x : FieldCtx) : FieldWork → FieldCtx
  | .advance d first =>
    (reactionOrder first).foldl (fun y r => y.react d r)
      { x with part := x.part.advanceRecord d, advanced := d :: x.advanced }
  | .cueTimers => if began = .cue then { x with part := x.part.tickCueTimers } else x
  | .rollPlays => { x with part := x.part.each allDecks (fun d q => q.rollPlay d) }
  | .postroll => if began = .postroll then { x with part := x.part.tickPostroll } else x
  | .guard => { x with part := x.part.tickGuard }
  | .autoTake => { x with part := x.part.modMep Mep.advanceTake }
  | .gpi n =>
    let level := x.part.gtu.pins.getLsbD n.val
    ({ x with part := x.part.modGtu (fun u => { u with gpis := u.gpis.modify n (·.sampled level) }) }).judgeEdge n

/-- All the work of a field start, in the order that the model takes where none is asked for. -/
def defaultWork : List FieldWork :=
  [.advance 0 [], .advance 1 [], .advance 2 [], .advance 3 [], .cueTimers, .rollPlays, .postroll, .guard, .autoTake,
   .gpi 0, .gpi 1, .gpi 2, .gpi 3]

/-- The order of the work: what is asked for first, then the rest, each piece once. -/
def workOrder (asked : List FieldWork) : List FieldWork := withoutRepeats FieldWork.piece [] (asked ++ defaultWork)

/-- The blocks' work at a field start (sections 4.3, 9, 10.8, 11.1). -/
def Part.fieldWork (p : Part) (asked : List FieldWork) : Part :=
  ((workOrder asked).foldl (FieldCtx.work p.eds.phase) { part := p, advanced := [], held := [] }).part

/-! ## The field start itself (R3, R4, R9, R18, R26, R84) -/

/-- The field count after a field start (R4). -/
def nextCount (n : Nat) : Nat := (n + 1) % Config.countModulus

/-- The RTU timing after a field start that completes the field it counts (R3, R9). -/
def Rtu.timingFromHere (r : Rtu) : Timing :=
  { elapsed := 0, placed := 0, counted := r.timing.counted.other, sentStd := r.std, opened := true, owes := none
    before := some { len := r.timing.placed + Config.fieldLen r.std r.timing.counted, id := r.fieldId
                     std := r.timing.sentStd } }

/-- The RTU timing after the field start that fell due at the instant of a snap: the timing stays as the snap placed
it, counting the REF field, and the field just opened is cut or goes on until that REF field is complete (R9). -/
def Rtu.timingFromSnap (r : Rtu) (std : Standard) : Timing :=
  { elapsed := r.timing.within, placed := 0, counted := r.timing.counted, sentStd := std, opened := true, owes := none
    before := some { len := r.timing.placed, id := r.fieldId, std := r.timing.sentStd } }

/-- The RTU at a field start: count, identity, and the timing of the field it opens (R3, R4, R9). -/
def Rtu.opensField (r : Rtu) : Rtu :=
  match r.timing.owes with
  | some (f, std) => { r with fieldCount := nextCount r.fieldCount, fieldId := f, timing := r.timingFromSnap std }
  | none => { r with fieldCount := nextCount r.fieldCount, fieldId := r.timing.counted.other, timing := r.timingFromHere }

/-- The line settings held for a standard. -/
def Pku.linesFor (k : Pku) : Standard → LineSettings
  | .sys30 => k.lines30
  | .sys25 => k.lines25

/-- The PKU at a field start: the reply lists, the settings and the read condition of the field
(R18, R26, R28). DESIGN CHOICE (log entry 42): a field start that was owed across a confirming reference which changed
the standard opens its field in the old standard with the settings of the new one, which is the one in effect at that
field start. -/
def Pku.opensField (k : Pku) (r : Rtu) : Pku :=
  { k with toWrite := k.building, building := [], inUse := k.linesFor r.std, openedLocked := r.lock == .locked }

/-- Each port takes the slot line held in its deck's parameters (R84). -/
def Part.latchSlotLines (p : Part) : Part :=
  p.each allDecks (fun d q => q.modPort d (fun t => { t with slotLine := (p.deck d).params.slotLine }))

/-- A field start without a pending full reset. -/
def Part.openField (p : Part) (asked : List FieldWork) : Part :=
  let q := p.modRtu Rtu.opensField
  ((q.modPku (fun k => k.opensField q.rtu)).latchSlotLines).fieldWork asked

/-- A field start is declared, with the levels at the GPI pins (R3, R4, R36). -/
def Part.fieldStart (p : Part) (pins : BitVec 4) (asked : List FieldWork) : Part :=
  let q := p.modGtu (fun g => { g with pins := pins })
  if q.pku.fullPending then q.applyFullReset else q.openField asked

end Sys2Proof.Machine
end

