-- ==== Sys2Proof/Machine/Packets.lean ====
section
/-! DEFINITION. Meanings: packets, replies, notices and the commands of the PKU (chapter 2). -/

namespace Sys2Proof.Machine

open Sys2Proof

/-- PACKET_BAD_FORMAT (R20): answered BAD_FORMAT, PACKET_ERROR set, the error count up to 255. -/
def execPacketBadFormat (off kind : Nat) (s : State) : Host.Outcome State Fault Refusal :=
  let p := (s.part.raise .packetError).modPku (fun k => { k with errors := min 255 (k.errors + 1) })
  dispatched s kind off (p, { result := .badFormat })

/-- PACKET_UNKNOWN_KIND (R21): answered UNKNOWN. -/
def execPacketUnknownKind (off kind : Nat) (s : State) : Host.Outcome State Fault Refusal :=
  dispatched s kind off (s.part, { result := .unknown })

/-- PACKET_WRONG_LENGTH (R21): answered BAD_VALUE with operand number 0. -/
def execPacketWrongLength (off kind : Nat) (s : State) : Host.Outcome State Fault Refusal :=
  dispatched s kind off (s.part, .badValue 0)

/-- STATUS_BLOCK_WRITE (R29, R38): the status block of this instant on output line S, with what R4 and R105 report in it
beside its bytes. -/
def execStatusBlockWrite (s : State) : Host.Outcome State Fault Refusal :=
  ran s (s.part.modPku (fun k => { k with
    statusWords := packetWords statusType s.part.statusBytes, statusBeside := some s.part.statusBeside }))

/-- The eight output lines after S: the reply records in list order, then lines without a record (R26). -/
def replyLines (rs : List Reply) : List (List Word10) :=
  ((rs.map (fun r : Reply => packetWords replyType r.bytes)) ++ List.replicate 8 []).take 8

/-- REPLY_RECORD_WRITE (R26, R38): the list to write goes onto its lines and is discarded. -/
def execReplyRecordWrite (s : State) : Host.Outcome State Fault Refusal :=
  ran s (s.part.modPku (fun k => { k with replyWords := replyLines k.toWrite, toWrite := [] }))

/-- A line setting as a tuning operand (Table 2-1). -/
def lineTuning (n : Nat) (r : Nat × Nat × Nat) (v : Nat) : Tuning :=
  { number := n, lo := r.1, hi := r.2.1, value := v }

/-- A tuning operand's value as stored. -/
def Tuning.stored (t : Tuning) : Nat := clampTo t.lo t.hi t.value

/-- CTRL_LINES (R28): the four line settings, clamped, for use from the next field start. -/
def execCtrlLines (off w30 s30 w25 s25 : Nat) (s : State) : Host.Outcome State Fault Refusal :=
  let a := lineTuning 1 (Config.windowLine .sys30) w30
  let b := lineTuning 2 (Config.statusLine .sys30) s30
  let c := lineTuning 3 (Config.windowLine .sys25) w25
  let d := lineTuning 4 (Config.statusLine .sys25) s25
  dispatched s 0x10 off
    (s.part.modPku (fun k => { k with
      lines30 := { window := a.stored, status := b.stored }
      lines25 := { window := c.stored, status := d.stored } }), .taken [a, b, c, d])

/-- The notice mask of eighteen bits, refused with any bit above bit 17 (R31, R32). -/
def maskOf (mask : Nat) : Option (BitVec 18) :=
  if mask < 2 ^ 18 then some (BitVec.ofNat 18 mask) else none

/-- CLEAR_NOTICES (R31): the notices named are cleared, and with PACKET_ERROR the error count. -/
def execClearNotices (off mask : Nat) (s : State) : Host.Outcome State Fault Refusal :=
  match maskOf mask with
  | none => dispatched s 0x11 off (s.part, .badValue 1)
  | some m =>
    dispatched s 0x11 off
      (s.part.modPku (fun k => { k with
        notices := k.notices &&& ~~~m
        errors := if m.getLsbD Notice.packetError.bit then 0 else k.errors }), .accepted)

/-- NOTICE_MASK (R32): the report mask is replaced. -/
def execNoticeMask (off mask : Nat) (s : State) : Host.Outcome State Fault Refusal :=
  match maskOf mask with
  | none => dispatched s 0x12 off (s.part, .badValue 1)
  | some m => dispatched s 0x12 off (s.part.modPku (fun k => { k with mask := m }), .accepted)

/-- RESET_PART FULL: refused while a slot is ACTIVE, else pending for the next field start (R35). -/
def Part.askFullReset (p : Part) : Part × Answer :=
  if p.eventActive then (p, .state) else (p.modPku (fun k => { k with fullPending := true }), .accepted)

/-- RESET_PART_FULL (R35): RESET_PART with the scope byte of its packet. Scope FULL is 0; a packet of
scope ENGINE goes to the EDS; any other scope is refused. -/
def execResetPartFull (off scope : Nat) (s : State) : Host.Outcome State Fault Refusal :=
  match scope with
  | 0 => dispatched s 0x13 off s.part.askFullReset
  | 1 => dispatched s 0x13 off (s.part.resetEngine, .accepted)
  | _ => dispatched s 0x13 off (s.part, .badValue 1)

/-- RESET_PART_ENGINE (R151): RESET_PART with scope ENGINE, accepted in every phase. -/
def execResetPartEngine (off : Nat) (s : State) : Host.Outcome State Fault Refusal :=
  dispatched s 0x13 off (s.part.resetEngine, .accepted)

end Sys2Proof.Machine
end

