-- ==== Sys2Proof/Machine/Chase.lean ====
section
/-! DEFINITION. Meaning: CHASE_PARAMS (chapter 7). -/

namespace Sys2Proof.Machine

open Sys2Proof

/-- CHASE_PARAMS (R116): refused with BUSY while any deck chases. -/
def execChaseParams (off gain slew window lockRun unlock sync : Nat) (s : State) :
    Host.Outcome State Fault Refusal :=
  let a : Tuning := { number := 1, lo := 1, hi := 32, value := gain }
  let b : Tuning := { number := 2, lo := 0, hi := 128, value := slew }
  let c : Tuning := { number := 3, lo := 2, hi := 240, value := window }
  let d : Tuning := { number := 4, lo := 1, hi := 16, value := lockRun }
  let e : Tuning := { number := 5, lo := 2, hi := 8, value := unlock }
  let f : Tuning := { number := 6, lo := 2, hi := 16, value := sync }
  if allDecks.any s.part.chasing then dispatched s 0x48 off (s.part, .busy)
  else
    dispatched s 0x48 off
      ({ s.part with chu := { s.part.chu with params :=
          { gain := a.stored, slew := b.stored, window := c.stored, lockRun := d.stored
            unlock := e.stored, sync := f.stored } } }, .taken [a, b, c, d, e, f])

end Sys2Proof.Machine
end

