-- ==== Sys2Proof/Machine/Console.lean ====
section
/-! DEFINITION. Meanings: general-purpose inputs and tally (chapter 11). -/

namespace Sys2Proof.Machine

open Sys2Proof

/-- GPI_ACCEPTED_EDGE (R173, R174): the edge of one input is accepted and handed on if its run count has
reached D. Every record has made its field start step, so a capture is judged at once (R74). -/
def execGpiAcceptedEdge (input : Fin 4) (s : State) : Host.Outcome State Fault Refusal :=
  ran s (FieldCtx.judgeEdge { part := s.part, advanced := allDecks, held := [] } input).part

/-- A GPI input or tally output number. -/
def lineOf (n : Nat) : Option (Fin 4) := if h : n < 4 then some ⟨n, h⟩ else none

/-- One GPI input configured (R175). -/
def Gpi.configured (g : Gpi) (role : GpiRole) (edge : Edge) (debounce : Nat) (deck : DeckNo) : Gpi :=
  { g with role := role, edge := edge, debounce := debounce, markDeck := deck
           accepted := g.lastSample, run := 0 }

/-- GPI_CONFIG (R175). -/
def execGpiConfig (off input role edge debounce markDeck : Nat) (s : State) :
    Host.Outcome State Fault Refusal :=
  let x : Tuning := { number := 4, lo := 1, hi := 8, value := debounce }
  match lineOf input, gpiRoleOf role, edgeOf edge, deckOf markDeck with
  | some n, some r, some e, some d =>
    dispatched s 0x70 off
      (s.part.modGtu (fun u => { u with gpis := u.gpis.modify n (·.configured r e x.stored d) }), .taken [x])
  | n, r, e, d =>
    dispatched s 0x70 off (s.part, .badValue ((firstBad
      [(1, n.isSome), (2, r.isSome), (3, e.isSome), (5, d.isSome)]).getD 0))

/-- TALLY_CONFIG (R177): the output follows its new role's condition from this instant. -/
def execTallyConfig (off output role : Nat) (s : State) : Host.Outcome State Fault Refusal :=
  match lineOf output, tallyRoleOf role with
  | some n, some r =>
    dispatched s 0x71 off (s.part.modGtu (fun u => { u with tallies := u.tallies.set n r }), .accepted)
  | n, r =>
    dispatched s 0x71 off (s.part, .badValue ((firstBad [(1, n.isSome), (2, r.isSome)]).getD 0))

end Sys2Proof.Machine
end

