-- ==== Sys2Proof/Machine/DeckLines.lean ====
section
/-! DEFINITION. Meanings: the deck lines (chapter 6). -/

namespace Sys2Proof.Machine

open Sys2Proof

/-- The pending direct command that an accepted DECK_DIRECT leaves (R104): its speed for VARIABLE, its
normalised label for CUE_TO. DESIGN CHOICE (log entry 39): the speed and the label that another command came with are
not kept. -/
def directFor (c : DirectCommand) (speed : Int) (l : Label) : Direct :=
  { command := c
    speed := if c = .variableSpeed then speed else 0
    cue := if c = .cueTo then some l else none }

/-- The checks of R104 after the structural values. -/
def Part.askDirect (p : Part) (d : DeckNo) (x : Direct) (normalised : Bool) : Part × Answer :=
  if p.inActiveEvent d || (p.deck d).direct.isSome then (p, .busy)
  else if (p.deck d).role = .noRole then (p, .state)
  else (p.modDeck d (fun k => { k with direct := some x }), { Answer.accepted with normalised := normalised })

/-- DECK_DIRECT (R104). -/
def execDeckDirect (off deck command : Nat) (speed : Int) (cue : RawLabel) (s : State) :
    Host.Outcome State Fault Refusal :=
  match deckOf deck, directOf command, readLabel s.part.counting cue with
  | some d, some c, some (l, n) => dispatched s 0x43 off (s.part.askDirect d (directFor c speed l) n)
  | d, c, l =>
    dispatched s 0x43 off (s.part, .badValue ((firstBad
      [(1, d.isSome), (2, c.isSome), (4, l.isSome)]).getD 0))

/-- SLOT_LINE (R94): deadline, count-down, arbitration. -/
def execSlotLine (deck : DeckNo) (s : State) : Host.Outcome State Fault Refusal :=
  ran s (s.part.atSlotLine deck)

/-- FRAME_SEND_END (R89): the end of a frame's last stop bit; with no frame behind it the port turns its line to
receive. -/
def execFrameSendEnd (deck : DeckNo) (s : State) : Host.Outcome State Fault Refusal :=
  ran s (s.part.modPort deck Port.sendEnd)

/-- DECK_REPLY_GOOD (R97 to R99); a reply that no transaction awaits is discarded (R89). -/
def execDeckReplyGood (deck : DeckNo) (reply : DeckReply) (s : State) : Host.Outcome State Fault Refusal :=
  match (s.part.port deck).receiving with
  | some x => ran s (s.part.goodReply deck x reply)
  | none => ran s s.part

/-- DECK_REPLY_BAD (R96, R100): the transaction ends as a timeout; bytes that no transaction awaits are
discarded (R89). -/
def execDeckReplyBad (deck : DeckNo) (s : State) : Host.Outcome State Fault Refusal :=
  match (s.part.port deck).receiving with
  | some _ => ran s (s.part.timeout deck)
  | none => ran s s.part

/-- DECK_TIMEOUT (R100): the deadline judgement that SLOT_LINE makes. -/
def execDeckTimeout (deck : DeckNo) (s : State) : Host.Outcome State Fault Refusal :=
  ran s (s.part.judgeDeadline deck)

end Sys2Proof.Machine
end

