-- ==== Sys2Proof/Machine/DeckTable.lean ====
section
/-! DEFINITION. Meanings: the deck table's commands (chapter 5). -/

namespace Sys2Proof.Machine

open Sys2Proof

/-- The deck record after an accepted DECK_ASSIGN (R81). -/
def Deck.assigned (k : Deck) (role : Role) (input : Option Input) : Deck :=
  let gains := role == .recorder && k.role != .recorder
  let loses := role != .recorder && k.role == .recorder
  { k with
    role := role, input := input
    wantRecord := if gains || loses then false else k.wantRecord
    sentRecord := if gains then none else k.sentRecord
    direct := if role = .noRole ∧ k.role ≠ .noRole then none else k.direct }

/-- The ARMED slots that depend on deck d return to LOADED (R82). -/
def Part.disarmDependents (p : Part) (d : DeckNo) (recorder : Bool) : Part :=
  p.modEds (fun e => { e with slots := e.slots.map (fun s => if s.dependsOn d recorder then s.disarmed else s) })

/-- How many slots an accepted DECK_ASSIGN disarms (R82). -/
def Part.dependents (p : Part) (d : DeckNo) (recorder : Bool) : Nat :=
  (p.eds.slots.cells.filter (fun s => s.dependsOn d recorder)).length

/-- The effects of an accepted DECK_ASSIGN (R81, R82). -/
def Part.assignDeck (p : Part) (d : DeckNo) (role : Role) (input : Option Input) : Part × Answer :=
  let old := (p.deck d).role
  let recorder := old == .recorder || role == .recorder
  let q := p.modDeck d (·.assigned role input)
  let r := if role ≠ .noRole ∧ old = .noRole then q.modPort d (fun x => { x with prescaler := 1 }) else q
  (r.disarmDependents d recorder,
   { Answer.accepted with payload := [byteOf (p.dependents d recorder)] })

/-- Another deck than d holds this video input (R80). -/
def Part.inputTaken (p : Part) (d : DeckNo) (i : Input) : Bool :=
  allDecks.any (fun x => x != d && (p.deck x).input == some i)

/-- Another deck than d holds role RECORDER (R80). -/
def Part.otherRecorder (p : Part) (d : DeckNo) : Bool :=
  allDecks.any (fun x => x != d && (p.deck x).role == .recorder)

/-- The checks of R80 from step 2 onward, and the effects. -/
def Part.askAssign (p : Part) (d : DeckNo) (role : Role) (input : Option Input) : Part × Answer :=
  if (input.any fun i => p.inputTaken d i) then (p, .badValue 3)
  else if p.inActiveEvent d then (p, .busy)
  else if role = .recorder ∧ p.otherRecorder d = true then (p, .state)
  else p.assignDeck d role input

/-- DECK_ASSIGN (R80 to R82). -/
def execDeckAssign (off deck role input : Nat) (s : State) : Host.Outcome State Fault Refusal :=
  match deckOf deck, roleOf role, videoInputOf input with
  | some d, some r, some i => dispatched s 0x40 off (s.part.askAssign d r i)
  | d, r, i =>
    dispatched s 0x40 off (s.part, .badValue ((firstBad
      [(1, d.isSome), (2, r.isSome), (3, i.isSome)]).getD 0))

/-- DECK_PARAMS (R84, R85). -/
def execDeckParams (off deck poll slotLine playLead recordLead tolerance timeout : Nat) (s : State) :
    Host.Outcome State Fault Refusal :=
  let a : Tuning := { number := 2, lo := 1, hi := 64, value := poll }
  let b : Tuning := { number := 3, lo := 20, hi := 250, value := slotLine }
  let c : Tuning := { number := 4, lo := 0, hi := 30, value := playLead }
  let e : Tuning := { number := 5, lo := 0, hi := 15, value := recordLead }
  let f : Tuning := { number := 6, lo := 0, hi := 10, value := tolerance }
  let g : Tuning := { number := 7, lo := 5, hi := 255, value := timeout }
  match deckOf deck with
  | none => dispatched s 0x41 off (s.part, .badValue 1)
  | some d =>
    if s.part.inActiveEvent d then dispatched s 0x41 off (s.part, .busy)
    else
      dispatched s 0x41 off
        (s.part.modDeck d (fun k => { k with params :=
          { poll := a.stored, slotLine := b.stored, playLead := c.stored, recordLead := e.stored
            tolerance := f.stored, timeout := g.stored } }), .taken [a, b, c, e, f, g])

/-- DECK_READ (R86). -/
def execDeckRead (off deck : Nat) (s : State) : Host.Outcome State Fault Refusal :=
  match deckOf deck with
  | none => dispatched s 0x42 off (s.part, .badValue 1)
  | some d =>
    dispatched s 0x42 off
      (s.part, { Answer.accepted with payload := deckRecordBytes s.part.counting d (s.part.deck d) })

end Sys2Proof.Machine
end

