-- ==== Sys2Proof/Machine/EditList.lean ====
section
/-! DEFINITION. Meanings: the edit list's commands (chapter 8). -/

namespace Sys2Proof.Machine

open Sys2Proof

/-! ## EVENT_LOAD's operands (R120) -/

/-- A label operand as a slot stores it: normalised, with the facts of the load (R120, R123). -/
def storedLabelOf (c : Counting) (r : RawLabel) : Option StoredLabel :=
  match readLabel c r with
  | some (l, n) => some { label := l, drop := c.drop, normalised := n }
  | none => none

/-- Operand 3: a label, or MARK (none). -/
def recordInOf (c : Counting) (x : LabelChoice) : Option (Option StoredLabel) :=
  match x.alt with
  | 0 => (storedLabelOf c x.label).map some
  | 1 => some none
  | _ => none

/-- Operand 4: a length, clamped, or OPEN (none). -/
def lengthOf (x : NumberChoice) : Option (Option Nat) :=
  match x.alt with
  | 0 => some (some (clampTo 1 2591999 x.value))
  | 1 => some none
  | _ => none

/-- Operand 15: four flags. -/
def tracksOf (n : Nat) : Option (BitVec 4) := if n < 16 then some (BitVec.ofNat 4 n) else none

/-- A number of at most `hi` that is refused above it. -/
def structuralOf (hi n : Nat) : Option Nat := if n ≤ hi then some n else none

/-- Operands 16 to 23 of a key that is present. -/
def keyOf (c : Counting) (x : KeyOperands) : Option EventKey := do
  let deck ← deckOf x.fillDeck
  let fillIn ← storedLabelOf c x.fillIn
  let input ← inputOf x.keyInput
  let invert ← switchOf x.invert
  let on ← structuralOf 2591999 x.onOffset
  let off ← structuralOf 2591999 x.offOffset
  return { fillDeck := deck, fillIn := fillIn, keyInput := input, clip := clampTo 0 1023 x.clip
           gain := clampTo 1 255 x.gain, invert := invert, onOffset := on, offOffset := off }

/-- The key as an optional part (R37). -/
def optionalKeyOf (c : Counting) (x : KeyOperands) : Option (Option EventKey) :=
  match x.presence with
  | 0 => some none
  | 1 => (keyOf c x).map some
  | _ => none

/-- One entry of the source list. -/
def eventSourceOf (c : Counting) (x : SourceOperand) : Option EventSource := do
  let deck ← deckOf x.deck
  let play ← storedLabelOf c x.play
  return { deck := deck, play := play }

/-- The second entry, where the count asks for it. -/
def secondSourceOf (c : Counting) (count : Nat) (x : SourceOperand) : Option (Option EventSource) :=
  match count with
  | 1 => some none
  | 2 => (eventSourceOf c x).map some
  | _ => none

/-- The slot and the event record that the operands give, if every structural value is in range. -/
def eventRecordOf (c : Counting) (x : EventOperands) : Option (SlotNo × EventRecord) := do
  let slot ← slotOf x.slot
  let kind ← kindOf x.kind
  let recordIn ← recordInOf c x.recordIn
  let length ← lengthOf x.length
  let transition ← transitionOf x.transition
  let start ← structuralOf 2591998 x.start
  let reverse ← switchOf x.reverse
  let hold ← holdOf x.hold
  let tracks ← tracksOf x.tracks
  let key ← optionalKeyOf c x.key
  let source1 ← eventSourceOf c x.entry1
  let source2 ← secondSourceOf c x.sourceCount x.entry2
  return (slot,
    { kind := kind, recordIn := recordIn, length := length, transition := transition, start := start
      duration := clampTo 1 999 x.duration, pattern := x.pattern, curve := x.curve, reverse := reverse
      softness := clampTo 0 255 x.softness, preroll := clampTo 0 1800 x.preroll
      postroll := clampTo 0 600 x.postroll, hold := hold, tracks := tracks, key := key
      source1 := source1, source2 := source2 })

/-- The checks of a present key, in operand order; an absent key's fields are not judged (R120). -/
def keyChecks (c : Counting) (x : KeyOperands) : List (Nat × Bool) :=
  match x.presence with
  | 0 => []
  | 1 => [(16, (deckOf x.fillDeck).isSome), (17, (storedLabelOf c x.fillIn).isSome),
          (18, (inputOf x.keyInput).isSome), (21, (switchOf x.invert).isSome),
          (22, (structuralOf 2591999 x.onOffset).isSome), (23, (structuralOf 2591999 x.offOffset).isSome)]
  | _ => [(16, false)]

/-- The checks of the source list, in operand order; a count out of range names operand 24 (R120). -/
def sourceChecks (c : Counting) (x : EventOperands) : List (Nat × Bool) :=
  let first : List (Nat × Bool) :=
    [(24, (deckOf x.entry1.deck).isSome), (25, (storedLabelOf c x.entry1.play).isSome)]
  match x.sourceCount with
  | 1 => first
  | 2 => first ++ [(26, (deckOf x.entry2.deck).isSome), (27, (storedLabelOf c x.entry2.play).isSome)]
  | _ => [(24, false)]

/-- Every structural check of EVENT_LOAD, in operand order (R120, check 1). -/
def eventChecks (c : Counting) (x : EventOperands) : List (Nat × Bool) :=
  [(1, (slotOf x.slot).isSome), (2, (kindOf x.kind).isSome), (3, (recordInOf c x.recordIn).isSome),
   (4, (lengthOf x.length).isSome), (5, (transitionOf x.transition).isSome),
   (6, (structuralOf 2591998 x.start).isSome), (10, (switchOf x.reverse).isSome),
   (14, (holdOf x.hold).isSome), (15, (tracksOf x.tracks).isSome)]
  ++ keyChecks c x.key ++ sourceChecks c x

/-- The tuning operands of EVENT_LOAD (Table 8-2). The value field of OPEN and the fields of an absent
key are not judged. -/
def eventTunings (x : EventOperands) : List Tuning :=
  (if x.length.alt = 0 then [{ number := 4, lo := 1, hi := 2591999, value := x.length.value }] else [])
  ++ [{ number := 7, lo := 1, hi := 999, value := x.duration },
      { number := 11, lo := 0, hi := 255, value := x.softness },
      { number := 12, lo := 0, hi := 1800, value := x.preroll },
      { number := 13, lo := 0, hi := 600, value := x.postroll }]
  ++ (if x.key.presence = 1 then
        [{ number := 19, lo := 0, hi := 1023, value := x.key.clip },
         { number := 20, lo := 1, hi := 255, value := x.key.gain }]
      else [])

/-- A label of the record was normalised. -/
def EventRecord.normalised (e : EventRecord) : Bool :=
  (e.recordIn.any StoredLabel.normalised) || e.source1.play.normalised ||
    (e.source2.any fun s => s.play.normalised) || (e.key.any fun k => k.fillIn.normalised)

/-- A slot as a load leaves it (R119, R121). -/
def Slot.loadedWith (e : EventRecord) : Slot := { state := .loaded, event := some e, arm := none, run := .fresh }

/-- Write one slot whole. -/
def Part.setSlot (p : Part) (n : SlotNo) (s : Slot) : Part :=
  p.modEds (fun e => { e with slots := e.slots.set n s })

/-- EVENT_LOAD after its structural checks (R120, R121). -/
def Part.loadEvent (p : Part) (n : SlotNo) (e : EventRecord) (ts : List Tuning) : Part × Answer :=
  if (p.slot n).state = .active then (p, .busy)
  else (p.setSlot n (Slot.loadedWith e), { Answer.taken ts with normalised := e.normalised })

/-- EVENT_LOAD (R120, R121). -/
def execEventLoad (off : Nat) (ops : EventOperands) (s : State) : Host.Outcome State Fault Refusal :=
  match eventRecordOf s.part.counting ops with
  | some (n, e) => dispatched s 0x50 off (s.part.loadEvent n e (eventTunings ops))
  | none =>
    dispatched s 0x50 off (s.part, .badValue ((firstBad (eventChecks s.part.counting ops)).getD 0))

/-! ## Clear, read, arm -/

/-- EVENT_CLEAR after its operand check (R122). -/
def Part.clearSlot (p : Part) (n : SlotNo) : Part × Answer :=
  if (p.slot n).state = .active then (p, .busy) else (p.setSlot n .empty, .accepted)

/-- EVENT_CLEAR (R122). -/
def execEventClear (off slot : Nat) (s : State) : Host.Outcome State Fault Refusal :=
  match slotOf slot with
  | none => dispatched s 0x51 off (s.part, .badValue 1)
  | some n => dispatched s 0x51 off (s.part.clearSlot n)

/-- EVENT_READ (R123). -/
def execEventRead (off slot : Nat) (s : State) : Host.Outcome State Fault Refusal :=
  match slotOf slot with
  | none => dispatched s 0x52 off (s.part, .badValue 1)
  | some n =>
    dispatched s 0x52 off
      (s.part, { Answer.accepted with payload := slotBytes s.part.counting (s.part.slot n) })

/-- EVENT_ARM (R124 to R129). -/
def execEventArm (off slot : Nat) (s : State) : Host.Outcome State Fault Refusal :=
  match slotOf slot with
  | none => dispatched s 0x53 off (s.part, .badValue 1)
  | some n => dispatched s 0x53 off (s.part.armSlot n)

end Sys2Proof.Machine
end

