-- ==== Sys2Proof/Machine/MixEffects.lean ====
section
/-! DEFINITION. Meanings: the Mix/Effects Processor (chapter 10). -/

namespace Sys2Proof.Machine

open Sys2Proof

/-- ACTIVE_SET_TAKE (R155, R157, R172). -/
def execActiveSetTake (s : State) : Host.Outcome State Fault Refusal := ran s s.part.takeActiveSet

/-- A host mixer command after its structural checks: taken while the host owns the preload, else refused
with BUSY (R158). -/
def Part.hostMix (p : Part) (f : Mep → Mep) (a : Answer) : Part × Answer :=
  if p.mep.owner = .host then (p.modMep f, a) else (p, .busy)

/-- The crosspoint written into the preload (R168). -/
def ParamSet.withCrosspoint (x : ParamSet) (bg1 bg2 pvw : Source) : ParamSet :=
  { x with bg1 := bg1, bg2 := bg2, pvw := pvw }

/-- XPT_SET (R168). -/
def execXptSet (off bg1 bg2 pvw : Nat) (s : State) : Host.Outcome State Fault Refusal :=
  match sourceOf bg1, sourceOf bg2, sourceOf pvw with
  | some x, some y, some z =>
    dispatched s 0x60 off
      (s.part.hostMix (fun m => { m with preload := m.preload.withCrosspoint x y z }) .accepted)
  | x, y, z =>
    dispatched s 0x60 off (s.part, .badValue ((firstBad
      [(1, x.isSome), (2, y.isSome), (3, z.isSome)]).getD 0))

/-- The key items written into the preload (R169). -/
def ParamSet.withKey (x : ParamSet) (on : Bool) (fill : Source) (input : Input) (clip gain : Nat)
    (invert : Bool) : ParamSet :=
  { x with keyOn := on, fill := fill, keyInput := input, clip := clip, gain := gain, invert := invert }

/-- KEY_PARAMS (R169). -/
def execKeyParams (off keyOn fill keyInput clip gain invert : Nat) (s : State) :
    Host.Outcome State Fault Refusal :=
  let x : Tuning := { number := 4, lo := 0, hi := 1023, value := clip }
  let y : Tuning := { number := 5, lo := 1, hi := 255, value := gain }
  match switchOf keyOn, sourceOf fill, inputOf keyInput, switchOf invert with
  | some on, some src, some inp, some inv =>
    dispatched s 0x61 off
      (s.part.hostMix (fun m => { m with preload := m.preload.withKey on src inp x.stored y.stored inv })
        (.taken [x, y]))
  | on, src, inp, inv =>
    dispatched s 0x61 off (s.part, .badValue ((firstBad
      [(1, on.isSome), (2, src.isSome), (3, inp.isSome), (6, inv.isSome)]).getD 0))

/-- A pattern number. -/
def patternOf (n : Nat) : Option (Fin 16) := if h : n < 16 then some ⟨n, h⟩ else none

/-- A curve number. -/
def curveOf (n : Nat) : Option (Fin 4) := if h : n < 4 then some ⟨n, h⟩ else none

/-- The mixer at the start of an auto-take (R170). -/
def Mep.startTake (m : Mep) (t : Take) (pattern : Fin 16) (softness : Nat) (reverse : Bool) : Mep :=
  { m with
    owner := .auto, take := some t
    preload := { m.preload with
      transition := t.kind, pattern := pattern, reverse := reverse, softness := softness
      level := m.takeLevel t } }

/-- AUTO_TAKE (R170). -/
def execAutoTake (off kind duration pattern curve softness reverse : Nat) (s : State) :
    Host.Outcome State Fault Refusal :=
  let x : Tuning := { number := 2, lo := 1, hi := 999, value := duration }
  let y : Tuning := { number := 5, lo := 0, hi := 255, value := softness }
  match transitionOf kind, patternOf pattern, curveOf curve, switchOf reverse with
  | some k, some p, some c, some r =>
    dispatched s 0x62 off
      (s.part.hostMix
        (fun m => m.startTake { kind := k, duration := x.stored, curve := c, count := 0 } p y.stored r)
        (.taken [x, y]))
  | k, p, c, r =>
    dispatched s 0x62 off (s.part, .badValue ((firstBad
      [(1, k.isSome), (3, p.isSome), (4, c.isSome), (6, r.isSome)]).getD 0))

/-- AUTO_TAKE_END (R171): the take ends if its counter has passed its duration. -/
def execAutoTakeEnd (s : State) : Host.Outcome State Fault Refusal := ran s (s.part.modMep Mep.endTakeIfOver)

/-- The pattern is named by the active slot's record or is that of a running auto-take (R167). -/
def Part.patternInUse (p : Part) (n : Fin 16) : Bool :=
  (p.activeEvent.any fun e => e.pattern == n.val) ||
    (p.mep.owner == .auto && p.mep.preload.pattern == n)

/-- PATTERN_LOAD (R167). -/
def execPatternLoad (off pattern shape cellsX cellsY reverse : Nat) (s : State) :
    Host.Outcome State Fault Refusal :=
  let x : Tuning := { number := 3, lo := 1, hi := 16, value := cellsX }
  let y : Tuning := { number := 4, lo := 1, hi := 16, value := cellsY }
  match patternOf pattern, shapeOf shape, switchOf reverse with
  | some n, some sh, some r =>
    if s.part.patternInUse n then dispatched s 0x63 off (s.part, .busy)
    else
      dispatched s 0x63 off
        (s.part.modMep (fun m => { m with patterns := m.patterns.set n ⟨sh, x.stored, y.stored, r⟩ }),
         .taken [x, y])
  | n, sh, r =>
    dispatched s 0x63 off (s.part, .badValue ((firstBad
      [(1, n.isSome), (2, sh.isSome), (5, r.isSome)]).getD 0))

/-- A loadable curve, 1 to 3 (R166). -/
def loadableCurveOf (n : Nat) : Option (Fin 4) := if n = 0 then none else curveOf n

/-- Seventeen points, each clamped; none for a payload of another length (R166). -/
def pointsOf (points : List Nat) : Option (Table Nat 17) :=
  if h : points.length = 17 then some ⟨points.map (clampTo 0 4096), by simp [h]⟩ else none

/-- The points as tuning operands 2 to 18 (R166). -/
def pointTunings (points : List Nat) : List Tuning :=
  points.zipIdx.map (fun x => { number := x.2 + 2, lo := 0, hi := 4096, value := x.1 })

/-- The curve is named by the active slot's record or is that of a running auto-take (R166). -/
def Part.curveInUse (p : Part) (n : Fin 4) : Bool :=
  (p.activeEvent.any fun e => e.curve == n.val) ||
    (p.mep.owner == .auto && p.mep.take.any fun t => t.curve == n)

/-- CURVE_LOAD (R166). A packet with another number of points is of the wrong length (R21). -/
def execCurveLoad (off curve : Nat) (points : List Nat) (s : State) : Host.Outcome State Fault Refusal :=
  match pointsOf points, loadableCurveOf curve with
  | none, _ => dispatched s 0x64 off (s.part, .badValue 0)
  | some _, none => dispatched s 0x64 off (s.part, .badValue 1)
  | some t, some n =>
    if s.part.curveInUse n then dispatched s 0x64 off (s.part, .busy)
    else
      dispatched s 0x64 off
        (s.part.modMep (fun m => { m with curves := m.curves.set n t }), .taken (pointTunings points))

end Sys2Proof.Machine
end

