-- ==== Sys2Proof/Machine/Running.lean ====
section
/-! DEFINITION. Meanings: running an edit (chapter 9). -/

namespace Sys2Proof.Machine

open Sys2Proof

/-! ## Host commands -/

/-- The list starts at slot n, which is ARMED (R133, R134). -/
def Part.startList (p : Part) (n : SlotNo) : Part :=
  (p.modEds (fun e => { e with cursor := n, stopRequest := false })).startEvent n

/-- LIST_RUN after its operand check (R133, steps 2 to 5). -/
def Part.runList (p : Part) (n : SlotNo) : Part × Answer :=
  if p.eds.phase ≠ .idle then (p, .busy)
  else
    match (p.slot n).state with
    | .empty => (p, .state)
    | .armed => (p.startList n, .accepted)
    | _ =>
      match p.armSlot n with
      | (q, a) => if a.result = .accepted then (q.startList n, a) else (q, a)

/-- LIST_RUN (R133, R134). -/
def execListRun (off slot : Nat) (s : State) : Host.Outcome State Fault Refusal :=
  match slotOf slot with
  | none => dispatched s 0x58 off (s.part, .badValue 1)
  | some n => dispatched s 0x58 off (s.part.runList n)

/-- LIST_STOP (R148). -/
def execListStop (off : Nat) (s : State) : Host.Outcome State Fault Refusal :=
  if s.part.eds.phase = .idle then dispatched s 0x59 off (s.part, .state)
  else dispatched s 0x59 off (s.part.modEds (fun e => { e with stopRequest := true }), .accepted)

/-- ABORT (R147, R148). -/
def execAbort (off : Nat) (s : State) : Host.Outcome State Fault Refusal :=
  if s.part.eds.phase = .idle then dispatched s 0x5A off (s.part, .state)
  else dispatched s 0x5A off (s.part.abortEvent .hostAbort, .accepted)

/-- RELEASE (R138). -/
def execRelease (off : Nat) (s : State) : Host.Outcome State Fault Refusal :=
  dispatched s 0x5B off (s.part.takeRelease, .accepted)

/-- END_OPEN (R144). -/
def execEndOpen (off : Nat) (s : State) : Host.Outcome State Fault Refusal :=
  if s.part.openEndable then dispatched s 0x5C off (s.part.endOpenEvent, .accepted)
  else dispatched s 0x5C off (s.part, .state)

/-- GUARD_LIMIT (R149). -/
def execGuardLimit (off limit : Nat) (s : State) : Host.Outcome State Fault Refusal :=
  let a : Tuning := { number := 1, lo := 0, hi := 60, value := limit }
  dispatched s 0x5D off (s.part.modEds (fun e => { e with guardLimit := a.stored }), .taken [a])

/-! ## Events: the judgements that FIELD_START also makes -/

/-- CUE_TIMEOUT (R136): the event fails if the deck's cue timer has run out. -/
def execCueTimeout (deck : DeckNo) (s : State) : Host.Outcome State Fault Refusal :=
  ran s (s.part.judgeCueTimer deck)

/-- ROLL_PLAY_DUE (R140): PLAY is wanted of the deck if it falls due in the field in progress. -/
def execRollPlayDue (deck : DeckNo) (s : State) : Host.Outcome State Fault Refusal :=
  ran s (s.part.rollPlay deck)

/-- POSTROLL_END (R145): the event ends as DONE if its postroll count stands at 0. -/
def execPostrollEnd (s : State) : Host.Outcome State Fault Refusal :=
  ran s (if s.part.eds.phase = .postroll ∧ s.part.eds.postroll = 0 then s.part.endPostroll else s.part)

/-- GUARD_TRIP (R149): the guard trips if it runs and its count has reached the limit. -/
def execGuardTrip (s : State) : Host.Outcome State Fault Refusal := ran s s.part.judgeGuard

end Sys2Proof.Machine
end

