-- ==== Sys2Proof/Machine/Output.lean ====
section
/-! DEFINITION. Output timing (section 1.4, R15, R16): which field PGM and PVW carry at an instant, which of its lines,
and the timing references that both outputs carry. -/

namespace Sys2Proof.Machine

open Sys2Proof

/-- A field as the outputs carry it: its identity, count and standard, and the luma sample periods since its field
start. -/
structure OutputField where
  id : FieldId
  count : Nat
  std : Standard
  since : Nat
deriving DecidableEq, Repr

/-- Line length of the field in progress (R9, R15). -/
def Rtu.sentLine (r : Rtu) : Nat := Config.lineLen r.timing.sentStd

/-- The field in progress as the outputs carry it. -/
def Rtu.presentField (r : Rtu) : OutputField :=
  { id := r.fieldId, count := r.fieldCount, std := r.timing.sentStd, since := r.timing.elapsed }

/-- The field before, whose last lines are sent in the first two line periods after the field start (R15). -/
def Rtu.endedField (r : Rtu) (x : EndedField) : OutputField :=
  { id := x.id, count := (r.fieldCount + Config.countModulus - 1) % Config.countModulus, std := x.std
    since := x.len + r.timing.elapsed }

/-- The field that PGM and PVW carry at this instant (R15): line 1 of a field begins two line periods after its field
start, and until then the field before goes on. None while the outputs have carried no line since a reset. -/
def Rtu.outputField (r : Rtu) : Option OutputField :=
  if 2 * r.sentLine ≤ r.timing.elapsed then some r.presentField else r.timing.before.map r.endedField

/-- Line length of an output field (Table 1-1). -/
def OutputField.lineLen (f : OutputField) : Nat := Config.lineLen f.std

/-- The number of the output line in progress: line n begins n + 1 line periods after the field start (R15). Numbers
past the field's last line are extension lines (R9). -/
def OutputField.line (f : OutputField) : Nat := f.since / f.lineLen - 1

/-- An output line begins at this instant. -/
def OutputField.lineBegins (f : OutputField) : Bool := f.since % f.lineLen == 0

/-- A line of the field, not an extension line. -/
def OutputField.hasLine (f : OutputField) (n : Nat) : Bool := decide (1 ≤ n ∧ n ≤ Config.fieldLines f.std f.id)

/-- An active line of the field (Table 1-3). -/
def OutputField.isActive (f : OutputField) (n : Nat) : Bool :=
  decide (Config.firstActive f.std f.id ≤ n ∧ n ≤ Config.fieldLines f.std f.id)

/-- The output field of which a line begins at this instant, where that is a line of the field and no extension line
(R9, R15). -/
def Rtu.outputLineStart (r : Rtu) : Option OutputField :=
  r.outputField.filter (fun f => f.lineBegins && f.hasLine f.line)

/-- A timing reference on an output: of a line, or of the first line of a field with the field's identity (R15). -/
inductive OutputReference
  | line
  | field (id : FieldId)
deriving DecidableEq, Repr

/-- The timing reference that PGM and PVW carry at this instant: each output line opens with one, and line 1 with the
field timing reference of the field's identity (R15). -/
def Rtu.outputReference (r : Rtu) : Option OutputReference :=
  match r.outputField with
  | some f => if f.lineBegins then (if f.line = 1 then some (.field f.id) else some .line) else none
  | none => none

end Sys2Proof.Machine
end

