-- ==== Sys2Proof/Machine/Picture.lean ====
section
/-! DEFINITION. The picture: what an SIU supplies for an output line (R46 to R48), what each source
offers (R153, R154), how the MEP composes PGM and PVW from the active set (R160 to R164), and every sample that the
two outputs carry (R16, R26, R38). -/

namespace Sys2Proof.Machine

open Sys2Proof

/-- The samples of one active line: 720 luma and 360 of each chroma component. -/
structure VideoLine where
  luma : List Nat
  cb : List Nat
  cr : List Nat
deriving DecidableEq, Repr

/-- A component of the picture. -/
inductive Component | y | cb | cr
deriving DecidableEq, Repr

/-- Black of a component (section 0.4). -/
def blackCode : Component → Nat
  | .y => 64
  | _ => 512

/-- The component at luma sample x; a chroma sample is co-sited with every even x (section 0.4). DESIGN CHOICE (log entry
52): past the end of an input line that was cut short stand the codes of black, luma 64 and chroma 512. -/
def VideoLine.pick (l : VideoLine) (c : Component) (x : Nat) : Nat :=
  match c with
  | .y => l.luma.getD x 64
  | .cb => l.cb.getD (x / 2) 512
  | .cr => l.cr.getD (x / 2) 512

/-! ## What an SIU supplies -/

/-- Clamping of an active sample into the legal codes (R48). -/
def clampCode (v : Nat) : Nat := clampTo 4 1019 v

/-- A black line (R47). -/
def blackLine : VideoLine :=
  { luma := List.replicate 720 64, cb := List.replicate 360 512, cr := List.replicate 360 512 }

/-- The input line that the store holds for output line n of the output field of this count (R46). DESIGN CHOICE (log
entry 49): where two input fields are matched to that output field, the newest stored line of the count and number is
taken, of whichever of the two it is. -/
def Siu.storedFor (s : Siu) (field line : Nat) : Option StoredLine :=
  s.store.find? (fun l => l.field == some field && l.line == line)

/-- A look in the store for a line, as it stands now (R47). -/
def Siu.look (s : Siu) (field line : Nat) : LookUp :=
  { field := field, line := line, found := s.storedFor field line }

/-- The look-up that holds for a line: the one made at its beginning (R47), or one made now where an event moved the
count past that beginning (log entry 47). -/
def Siu.lookUpFor (s : Siu) (field line : Nat) : LookUp :=
  match s.lookedUp with
  | some l => if l.field = field ∧ l.line = line then l else s.look field line
  | none => s.look field line

/-- The SIU with a look-up held for its line (R47). -/
def Siu.hold (s : Siu) (l : LookUp) : Siu := { s with lookedUp := some l }

/-- A line of an output field cannot be supplied by an input's SIU: a store slip (R47). -/
def Siu.slips (s : Siu) (field line : Nat) : Bool := (s.lookUpFor field line).found.isNone

/-- What an SIU supplies at output line n: the line found at its beginning, or black on a store slip (R46, R47). DEDUCED
(log entry 45): every sample supplied is clamped, also on a line stored while another standard's active lines were
clamped (R48, R153). -/
def Siu.supplies (s : Siu) (field line : Nat) : VideoLine :=
  match (s.lookUpFor field line).found with
  | some l => { luma := l.luma.map clampCode, cb := l.cb.map clampCode, cr := l.cr.map clampCode }
  | none => blackLine

/-- The samples of a line of an input field as the store takes them: clamped on the active lines of the field in the
standard in effect, as they are on the lines of its vertical interval (R48; log entry 45). -/
def storedSample (std : Standard) (f : FieldId) (line v : Nat) : Nat :=
  if Config.firstActive std f ≤ line ∧ line ≤ Config.fieldLines std f then clampCode v else v

/-- Write the input line that arrives into the elastic store, the four most recent lines kept (R40, R46, R48). DEDUCED
(log entry 45): the active lines clamped here are those of the standard in effect when the line arrives, also while a
field of another standard is still being sent. -/
def Siu.storeLine (s : Siu) (std : Standard) (v : VideoLine) : Siu :=
  let kept : Nat → Nat := storedSample std s.fieldId s.line
  { s with store := ({ field := s.matchedField, line := s.line, luma := v.luma.map kept
                       cb := v.cb.map kept, cr := v.cr.map kept } :: s.store).take 4 }

/-! ## Sources -/

/-- One bar of Table 10-1: Y, Cb, Cr. -/
def bar : Nat → Component → Nat
  | 0, .y => 721 | 0, .cb => 512 | 0, .cr => 512
  | 1, .y => 646 | 1, .cb => 176 | 1, .cr => 567
  | 2, .y => 525 | 2, .cb => 625 | 2, .cr => 176
  | 3, .y => 450 | 3, .cb => 289 | 3, .cr => 231
  | 4, .y => 335 | 4, .cb => 735 | 4, .cr => 793
  | 5, .y => 260 | 5, .cb => 399 | 5, .cr => 848
  | 6, .y => 139 | 6, .cb => 848 | 6, .cr => 457
  | _, .y => 64 | _, .cb => 512 | _, .cr => 512

/-- BARS at luma sample x (R154). -/
def barsAt (c : Component) (x : Nat) : Nat := bar (x / 90) c

/-- A substitute policy's samples. -/
def policyAt : Policy → Component → Nat → Nat
  | .black, c, _ => blackCode c
  | .bars, c, x => barsAt c x

/-- What an input offers, substituted or not (R153, R155). -/
def ActiveSet.inputOffers (a : ActiveSet) (lines : Table VideoLine 3) (i : Input) (c : Component)
    (x : Nat) : Nat :=
  match a.subst.get i.idx with
  | some pol => policyAt pol c x
  | none => (lines.get i.idx).pick c x

/-- What a source offers at sample x (R153); `lines` is what the three SIUs supply for the line. -/
def ActiveSet.offers (a : ActiveSet) (lines : Table VideoLine 3) (s : Source) (c : Component)
    (x : Nat) : Nat :=
  match s with
  | .a => a.inputOffers lines .a c x
  | .b => a.inputOffers lines .b c x
  | .c => a.inputOffers lines .c c x
  | .black => blackCode c
  | .bars => barsAt c x

/-! ## Wipes (R163, R164) -/

/-- The shapes of R163, from sx and sy. -/
def shapeValue : Shape → Nat → Nat → Nat
  | .hEdge, sx, _ => sx
  | .vEdge, _, sy => sy
  | .box, sx, sy => max (2 * (sx : Int) - 4095).natAbs (2 * (sy : Int) - 4095).natAbs
  | .diamond, sx, sy => ((2 * (sx : Int) - 4095).natAbs + (2 * (sy : Int) - 4095).natAbs) / 2
  | .diag, sx, sy => (sx + sy) / 2

/-- The pattern value of sample x on frame line `line` with frame height `height` and reverse (R163). -/
def patternValue (r : PatternRecord) (reverse : Bool) (height x line : Nat) : Nat :=
  let v := shapeValue r.shape ((x * r.cellsX) % 720 * 4096 / 720)
    ((line * r.cellsY) % height * 4096 / height)
  if Bool.xor r.reverse reverse then 4095 - v else v

/-- The wipe coefficient from T, softness and pattern value (R164). -/
def wipeCoefficient (level softness value : Nat) : Nat :=
  let h : Int := 16 * softness
  let edge : Int := Int.tdiv (level * (4096 + 2 * h)) 4096 - h
  let d : Int := edge - value
  if h = 0 then (if 0 < d then 1024 else 0)
  else (clampInt 0 1024 (512 + Int.tdiv (d * 512) h)).toNat

/-! ## Composition -/

/-- The mixing formula of R160 and R161. -/
def mixed (v1 v2 k : Nat) : Nat := (v1 * (1024 - k) + v2 * k + 512) / 1024

/-- The mix coefficient at sample x of frame line `line` (R160). -/
def ActiveSet.coefficient (a : ActiveSet) (x line : Nat) : Nat :=
  match a.params.transition with
  | .wipe => wipeCoefficient a.params.level a.params.softness
      (patternValue a.pattern a.params.reverse (Config.frameHeight a.std) x line)
  | _ => a.params.level

/-- The key coefficient from the key input's luma (R161). -/
def keyCoefficient (yk clip gain : Nat) (invert : Bool) : Nat :=
  let kk := (clampInt 0 1024 (Int.tdiv (((yk : Int) - clip) * gain) 16)).toNat
  if invert then 1024 - kk else kk

/-- The luma sample whose coefficients a component at x takes: its own, or the even one (R160). -/
def cosited (c : Component) (x : Nat) : Nat :=
  match c with
  | .y => x
  | _ => x - x % 2

/-- The background of PGM (R160). -/
def ActiveSet.background (a : ActiveSet) (lines : Table VideoLine 3) (c : Component) (x line : Nat) : Nat :=
  mixed (a.offers lines a.params.bg1 c x) (a.offers lines a.params.bg2 c x)
    (a.coefficient (cosited c x) line)

/-- The MEP's PGM result: the background with the key laid over it while key on is ON (R161). -/
def ActiveSet.program (a : ActiveSet) (lines : Table VideoLine 3) (c : Component) (x line : Nat) : Nat :=
  if a.params.keyOn then
    mixed (a.background lines c x line) (a.offers lines a.params.fill c x)
      (keyCoefficient (a.inputOffers lines a.params.keyInput .y (cosited c x)) a.params.clip
        a.params.gain a.params.invert)
  else a.background lines c x line

/-- The MEP's PVW result (R162). -/
def ActiveSet.preview (a : ActiveSet) (lines : Table VideoLine 3) (c : Component) (x : Nat) : Nat :=
  match a.owner with
  | .eds => a.offers lines a.params.bg2 c x
  | _ => a.offers lines a.params.pvw c x

/-- The frame line of active line n of a field (section 0.4). -/
def frameLine (n : Nat) (f : FieldId) : Nat := 2 * n + fieldBit f

/-! ## The output lines -/

/-- What the three SIUs supply at line n of an output field: line n of the input field matched to it (R46, R47). -/
def Part.suppliedLines (p : Part) (f : OutputField) (line : Nat) : Table VideoLine 3 :=
  p.sius.map (fun s => s.supplies f.count line)

/-- A line that carries a record: its words from sample 0, then luma 64, and chroma 512 throughout; a line without a
record is the same with no words (R26, R38). -/
def recordSample (words : List Word10) (c : Component) (x : Nat) : Nat :=
  match c with
  | .y => (words[x]?.map BitVec.toNat).getD 64
  | _ => blackCode c

/-- The words of the record on an output line of the vertical interval of PGM: the status block on line S, the replies
on lines S + 1 to S + 8, none elsewhere (R26, R29). -/
def Pku.wordsOn (k : Pku) (line : Nat) : List Word10 :=
  if line = k.inUse.status then k.statusWords
  else if k.inUse.status < line then k.replyWords.getD (line - k.inUse.status - 1) []
  else []

/-- PGM at sample x of line n of an output field. An active line carries the MEP's result, or BLACK in a field that
began outside LOCKED and FREEWHEEL; the vertical interval carries the records; an extension line blanking (R16, R26,
R38). DESIGN CHOICE (log entry 41): the codes of blanking, and of a vertical-interval line outside S to S + 8, are Y 64 and
Cb and Cr 512. -/
def Part.pgmLine (p : Part) (f : OutputField) (n : Nat) (c : Component) (x : Nat) : Nat :=
  if f.isActive n then
    if p.mep.active.onAir then
      p.mep.active.program (p.suppliedLines f n) c x (frameLine (n - Config.firstActive f.std f.id) f.id)
    else blackCode c
  else if f.hasLine n then recordSample (p.pku.wordsOn n) c x
  else blackCode c

/-- PVW at sample x of line n of an output field: the MEP's result or BLACK on an active line, blanking in the vertical
interval and on an extension line (R16, R162). DESIGN CHOICE (log entry 41): blanking is Y 64 and Cb and Cr 512. -/
def Part.pvwLine (p : Part) (f : OutputField) (n : Nat) (c : Component) (x : Nat) : Nat :=
  if f.isActive n && p.mep.active.onAir then p.mep.active.preview (p.suppliedLines f n) c x else blackCode c

/-- PGM at sample x of the output line in progress at this instant. -/
def Part.pgmSample (p : Part) (c : Component) (x : Nat) : Nat :=
  match p.rtu.outputField with
  | some f => p.pgmLine f f.line c x
  | none => blackCode c

/-- PVW at sample x of the output line in progress at this instant. -/
def Part.pvwSample (p : Part) (c : Component) (x : Nat) : Nat :=
  match p.rtu.outputField with
  | some f => p.pvwLine f f.line c x
  | none => blackCode c

end Sys2Proof.Machine
end

