-- ==== Sys2Proof/Machine/Sources.lean ====
section
/-! DEFINITION. Meanings: the source inputs (chapter 3). -/

namespace Sys2Proof.Machine

open Sys2Proof

/-- INPUT_CONFIG (R52): one input's VITC lines, clamped, from the input field that the next reference
opens. -/
def execInputConfig (off input first30 second30 first25 second25 : Nat) (s : State) :
    Host.Outcome State Fault Refusal :=
  let a : Tuning := { number := 2, lo := 10, hi := 19, value := first30 }
  let b : Tuning := { number := 3, lo := 10, hi := 19, value := second30 }
  let c : Tuning := { number := 4, lo := 6, hi := 22, value := first25 }
  let d : Tuning := { number := 5, lo := 6, hi := 22, value := second25 }
  match inputOf input with
  | none => dispatched s 0x20 off (s.part, .badValue 1)
  | some i =>
    dispatched s 0x20 off
      (s.part.modSiu i (fun u => { u with vitc :=
        { first30 := a.stored, second30 := b.stored, first25 := c.stored, second25 := d.stored } }),
       .taken [a, b, c, d])

/-- SUBST_POLICY (R53): the substitute policy of one input, refused with BUSY unless the host owns the
preload. -/
def execSubstPolicy (off input policy : Nat) (s : State) : Host.Outcome State Fault Refusal :=
  match inputOf input, policyOf policy with
  | none, _ => dispatched s 0x21 off (s.part, .badValue 1)
  | some _, none => dispatched s 0x21 off (s.part, .badValue 2)
  | some i, some pol =>
    if s.part.mep.owner = .host then
      dispatched s 0x21 off (s.part.modSiu i (fun u => { u with policy := pol }), .accepted)
    else dispatched s 0x21 off (s.part, .busy)

/-- INPUT_FIELD_REFERENCE (R43): a field timing reference of an input arrives at a count of the RTU timing (log
entry 8). -/
def execInputFieldReference (input : Input) (id : FieldId) (time : Nat) (s : State) : Host.Outcome State Fault Refusal :=
  let p := s.part.arrivingAt time
  ran s (p.modSiu input (fun u => u.atReference p.rtu id))

/-- INPUT_FIELD_WELL_FORMED (R41, R44, R51): the input field that the last reference closed is judged,
against the standard in effect; a field of another structure is judged bad. A field that is not to be
judged (R40, R45) is not. -/
def execInputFieldWellFormed (input : Input) (obs : FieldObs) (s : State) :
    Host.Outcome State Fault Refusal :=
  if (s.part.siu input).closedJudging then
    ran s (if fieldWellFormed obs s.part.rtu.std then s.part.inputGood input
           else s.part.inputBad input Siu.judgedBad)
  else ran s s.part

/-- INPUT_FIELD_BAD (R41, R44): an input field is judged bad, whatever made it so. -/
def execInputFieldBad (input : Input) (_cause : BadCause) (s : State) : Host.Outcome State Fault Refusal :=
  ran s (if (s.part.siu input).underJudgement then s.part.inputBad input Siu.judgedBad else s.part)

/-- INPUT_SILENCE_BAD (R42): two long lines of silence judge the field in progress bad; with none in
progress no judgement is made. -/
def execInputSilenceBad (input : Input) (s : State) : Host.Outcome State Fault Refusal :=
  ran s (if (s.part.siu input).judging then s.part.inputBad input Siu.silenced else s.part)

/-- INPUT_NO_SIGNAL (R42): a longer-field period of silence; no notice. -/
def execInputNoSignal (input : Input) (s : State) : Host.Outcome State Fault Refusal :=
  ran s (s.part.modSiu input (fun u => { u with
    state := .noSignal, clean := 0, matchedField := none, judging := false, closedJudging := false }))

/-- A store slip at a line of an output field: the line is black throughout, and an IN_WINDOW input becomes
OUT_OF_WINDOW with INPUT_WINDOW (R47). -/
def Part.slip (p : Part) (i : Input) (field line : Nat) : Part :=
  let q := p.modSiu i (fun u => u.hold { field := field, line := line, found := none })
  if (p.siu i).state = .inWindow then (q.modSiu i (fun u => { u with state := .outOfWindow })).raise .inputWindow else q

/-- STORE_SLIP (R47): at the beginning of line `line` of the output field that is being sent, the SIU finds no input
line in the store. Where it has the line there is no slip. -/
def execStoreSlip (input : Input) (line : Nat) (s : State) : Host.Outcome State Fault Refusal :=
  match s.part.rtu.outputField with
  | some f => ran s (if (s.part.siu input).slips f.count line then s.part.slip input f.count line else s.part)
  | none => ran s s.part

/-- VITC_READING (R50, R51): the end of the later VITC line of an input field. -/
def execVitcReading (input : Input) (first second : VitcLine) (s : State) :
    Host.Outcome State Fault Refusal :=
  ran s (s.part.formReading input first second)

end Sys2Proof.Machine
end

