-- ==== Sys2Proof/Machine/Timecode.lean ====
section
/-! DEFINITION. Meanings: timecode, tape position and marks (chapter 4). -/

namespace Sys2Proof.Machine

open Sys2Proof

/-- Store the four measurement preferences (R70). -/
def Part.setPreferences (p : Part) (f : DeckNo → Preference) : Part :=
  p.each allDecks (fun d q => q.modDeck d (fun k => { k with position := { k.position with preference := f d } }))

/-- A change of DF_MODE (R70, R88, R150). -/
def Part.changeDfMode (p : Part) (df : Bool) : Part :=
  ((p.modTcu (fun t => { t with dfMode := df })).countingChanged).edsCountingChange

/-- An accepted TC_CONFIG (R70). -/
def Part.configureTimecode (p : Part) (df : Bool) (f : DeckNo → Preference) : Part :=
  let q := p.setPreferences f
  if df = p.tcu.dfMode then q else q.changeDfMode df

/-- Four preferences as a function of the deck. -/
def fourPreferences (a b c d : Preference) : DeckNo → Preference
  | 0 => a
  | 1 => b
  | 2 => c
  | 3 => d

/-- TC_CONFIG (R70). -/
def execTcConfig (off df pref0 pref1 pref2 pref3 : Nat) (s : State) : Host.Outcome State Fault Refusal :=
  match switchOf df, preferenceOf pref0, preferenceOf pref1, preferenceOf pref2, preferenceOf pref3 with
  | some m, some a, some b, some c, some d =>
    if s.part.eventActive then dispatched s 0x30 off (s.part, .busy)
    else dispatched s 0x30 off (s.part.configureTimecode m (fourPreferences a b c d), .accepted)
  | m, a, b, c, d =>
    dispatched s 0x30 off (s.part, .badValue ((firstBad
      [(1, m.isSome), (2, a.isSome), (3, b.isSome), (4, c.isSome), (5, d.isSome)]).getD 0))

/-- POSITION_STALE (R62, step 4): the judgement that FIELD_START makes of one record. -/
def execPositionStale (deck : DeckNo) (s : State) : Host.Outcome State Fault Refusal :=
  ran s (s.part.judgeStale deck)

/-- A host mark at a label (R73). -/
def Part.pushLabel (p : Part) (d : DeckNo) (r : RawLabel) : Part × Answer :=
  match readLabel p.counting r with
  | none => (p, .badValue 2)
  | some (l, n) =>
    (p.pushMark { position := labelPosition p.counting l, deck := d, origin := .host },
     { Answer.accepted with normalised := n })

/-- A host mark at the deck's present position (R73). -/
def Part.pushNow (p : Part) (d : DeckNo) : Part × Answer :=
  if (p.deck d).position.valid then
    (p.pushMark { position := (p.deck d).position.position, deck := d, origin := .host }, .accepted)
  else (p, .state)

/-- MARK_PUSH (R73). -/
def execMarkPush (off deck : Nat) (position : LabelChoice) (s : State) : Host.Outcome State Fault Refusal :=
  match deckOf deck with
  | none => dispatched s 0x31 off (s.part, .badValue 1)
  | some d =>
    match position.alt with
    | 0 => dispatched s 0x31 off (s.part.pushLabel d position.label)
    | 1 => dispatched s 0x31 off (s.part.pushNow d)
    | _ => dispatched s 0x31 off (s.part, .badValue 2)

/-- MARK_POP (R75). -/
def execMarkPop (off : Nat) (s : State) : Host.Outcome State Fault Refusal :=
  match s.part.tcu.marks with
  | [] => dispatched s 0x32 off (s.part, .noMark)
  | m :: rest =>
    dispatched s 0x32 off
      (s.part.modTcu (fun t => { t with marks := rest }),
       { Answer.accepted with payload := markBytes s.part.counting m })

/-- MARK_CLEAR (R76). -/
def execMarkClear (off : Nat) (s : State) : Host.Outcome State Fault Refusal :=
  dispatched s 0x33 off (s.part.clearMarks, .accepted)

end Sys2Proof.Machine
end

