-- ==== Sys2Proof/Machine/Timing.lean ====
section
/-! DEFINITION. Meanings: resets, field starts and the judgements of REF (chapter 1; R33 to R36). -/

namespace Sys2Proof.Machine

open Sys2Proof

/-- POWER_ON (R33, R34): every block at its reset value, reset cause POWER_ON. -/
def execPowerOn (s : State) : Host.Outcome State Fault Refusal := ran s (s.part.resetWith .powerOn)

/-- RESET_LINE (R5, R33, R34, R35): as power-on, with reset cause RESET_LINE; a pending full reset drops. -/
def execResetLine (s : State) : Host.Outcome State Fault Refusal := ran s (s.part.resetWith .resetLine)

/-- FIELD_START (R3, R4), with the levels at the GPI pins and the work to be taken first. -/
def execFieldStart (pins : BitVec 4) (order : List FieldWork) (s : State) :
    Host.Outcome State Fault Refusal :=
  ran s (s.part.fieldStart pins order)

/-- REF_FIELD_WELL_FORMED (R1): a reference closes the REF field in progress, which is judged. It arrives at a count of
the RTU timing (R8, R10; log entry 8). -/
def execRefFieldWellFormed (obs : FieldObs) (time : Nat) (s : State) : Host.Outcome State Fault Refusal :=
  ran s ((s.part.arrivingAt time).refClosed obs)

/-- REF_FIELD_BAD (R1): the REF field in progress is judged bad, whatever made it so; the next one judged is opened
by the next field timing reference. With no REF field in progress no judgement is made. -/
def execRefFieldBad (_cause : BadCause) (s : State) : Host.Outcome State Fault Refusal :=
  ran s (if s.part.rtu.refField.isSome then s.part.refBad else s.part)

/-- SILENCE_JUDGEMENT (R2): a bad judgement, whether or not a REF field is in progress. -/
def execSilenceJudgement (s : State) : Host.Outcome State Fault Refusal :=
  ran s ((s.part.modRtu Rtu.silenceJudged).refBad)

/-- REF_FIELD_OPENED (R1, R2): a reference that closes no judged field opens one and ends the silence. -/
def execRefFieldOpened (id : FieldId) (s : State) : Host.Outcome State Fault Refusal :=
  ran s (s.part.refReference id)

/-- RESET_PART_FULL_APPLY (R36): the pending full reset is applied; without one nothing happens. -/
def execResetPartFullApply (s : State) : Host.Outcome State Fault Refusal :=
  ran s (if s.part.pku.fullPending then s.part.applyFullReset else s.part)

end Sys2Proof.Machine
end

