-- ==== Sys2Proof/Machine/Dispatch.lean ====
section
/-! DEFINITION. The dispatch: one arm per command or event, each one call of its meaning. -/

namespace Sys2Proof.Machine

open Sys2Proof

def exec (i : Instr) (s : State) : Host.Outcome State Fault Refusal :=
  match i with
  | .powerOn => Sys2Proof.Machine.execPowerOn s
  | .resetLine => Sys2Proof.Machine.execResetLine s
  | .fieldStart pins order => Sys2Proof.Machine.execFieldStart pins order s
  | .refFieldWellFormed obs time => Sys2Proof.Machine.execRefFieldWellFormed obs time s
  | .refFieldBad cause => Sys2Proof.Machine.execRefFieldBad cause s
  | .silenceJudgement => Sys2Proof.Machine.execSilenceJudgement s
  | .refFieldOpened id => Sys2Proof.Machine.execRefFieldOpened id s
  | .packetBadFormat off kind => Sys2Proof.Machine.execPacketBadFormat off kind s
  | .packetUnknownKind off kind => Sys2Proof.Machine.execPacketUnknownKind off kind s
  | .packetWrongLength off kind => Sys2Proof.Machine.execPacketWrongLength off kind s
  | .statusBlockWrite => Sys2Proof.Machine.execStatusBlockWrite s
  | .replyRecordWrite => Sys2Proof.Machine.execReplyRecordWrite s
  | .ctrlLines off w30 s30 w25 s25 => Sys2Proof.Machine.execCtrlLines off w30 s30 w25 s25 s
  | .clearNotices off mask => Sys2Proof.Machine.execClearNotices off mask s
  | .noticeMask off mask => Sys2Proof.Machine.execNoticeMask off mask s
  | .resetPartFull off scope => Sys2Proof.Machine.execResetPartFull off scope s
  | .resetPartFullApply => Sys2Proof.Machine.execResetPartFullApply s
  | .resetPartEngine off => Sys2Proof.Machine.execResetPartEngine off s
  | .inputConfig off input first30 second30 first25 second25 => Sys2Proof.Machine.execInputConfig off input first30 second30 first25 second25 s
  | .substPolicy off input policy => Sys2Proof.Machine.execSubstPolicy off input policy s
  | .inputFieldReference input id time => Sys2Proof.Machine.execInputFieldReference input id time s
  | .inputFieldWellFormed input obs => Sys2Proof.Machine.execInputFieldWellFormed input obs s
  | .inputFieldBad input cause => Sys2Proof.Machine.execInputFieldBad input cause s
  | .inputSilenceBad input => Sys2Proof.Machine.execInputSilenceBad input s
  | .inputNoSignal input => Sys2Proof.Machine.execInputNoSignal input s
  | .storeSlip input line => Sys2Proof.Machine.execStoreSlip input line s
  | .vitcReading input first second => Sys2Proof.Machine.execVitcReading input first second s
  | .tcConfig off df pref0 pref1 pref2 pref3 => Sys2Proof.Machine.execTcConfig off df pref0 pref1 pref2 pref3 s
  | .positionStale deck => Sys2Proof.Machine.execPositionStale deck s
  | .markPush off deck position => Sys2Proof.Machine.execMarkPush off deck position s
  | .markPop off => Sys2Proof.Machine.execMarkPop off s
  | .markClear off => Sys2Proof.Machine.execMarkClear off s
  | .deckAssign off deck role input => Sys2Proof.Machine.execDeckAssign off deck role input s
  | .deckParams off deck poll slotLine playLead recordLead tolerance timeout => Sys2Proof.Machine.execDeckParams off deck poll slotLine playLead recordLead tolerance timeout s
  | .deckRead off deck => Sys2Proof.Machine.execDeckRead off deck s
  | .deckDirect off deck command speed cue => Sys2Proof.Machine.execDeckDirect off deck command speed cue s
  | .slotLine deck => Sys2Proof.Machine.execSlotLine deck s
  | .frameSendEnd deck => Sys2Proof.Machine.execFrameSendEnd deck s
  | .deckReplyGood deck reply => Sys2Proof.Machine.execDeckReplyGood deck reply s
  | .deckReplyBad deck => Sys2Proof.Machine.execDeckReplyBad deck s
  | .deckTimeout deck => Sys2Proof.Machine.execDeckTimeout deck s
  | .chaseParams off gain slew window lockRun unlock sync => Sys2Proof.Machine.execChaseParams off gain slew window lockRun unlock sync s
  | .eventLoad off ops => Sys2Proof.Machine.execEventLoad off ops s
  | .eventClear off slot => Sys2Proof.Machine.execEventClear off slot s
  | .eventRead off slot => Sys2Proof.Machine.execEventRead off slot s
  | .eventArm off slot => Sys2Proof.Machine.execEventArm off slot s
  | .listRun off slot => Sys2Proof.Machine.execListRun off slot s
  | .cueTimeout deck => Sys2Proof.Machine.execCueTimeout deck s
  | .release off => Sys2Proof.Machine.execRelease off s
  | .rollPlayDue deck => Sys2Proof.Machine.execRollPlayDue deck s
  | .endOpen off => Sys2Proof.Machine.execEndOpen off s
  | .postrollEnd => Sys2Proof.Machine.execPostrollEnd s
  | .abort off => Sys2Proof.Machine.execAbort off s
  | .listStop off => Sys2Proof.Machine.execListStop off s
  | .guardTrip => Sys2Proof.Machine.execGuardTrip s
  | .guardLimit off limit => Sys2Proof.Machine.execGuardLimit off limit s
  | .activeSetTake => Sys2Proof.Machine.execActiveSetTake s
  | .xptSet off bg1 bg2 pvw => Sys2Proof.Machine.execXptSet off bg1 bg2 pvw s
  | .keyParams off keyOn fill keyInput clip gain invert => Sys2Proof.Machine.execKeyParams off keyOn fill keyInput clip gain invert s
  | .autoTake off kind duration pattern curve softness reverse => Sys2Proof.Machine.execAutoTake off kind duration pattern curve softness reverse s
  | .autoTakeEnd => Sys2Proof.Machine.execAutoTakeEnd s
  | .patternLoad off pattern shape cellsX cellsY reverse => Sys2Proof.Machine.execPatternLoad off pattern shape cellsX cellsY reverse s
  | .curveLoad off curve points => Sys2Proof.Machine.execCurveLoad off curve points s
  | .gpiAcceptedEdge input => Sys2Proof.Machine.execGpiAcceptedEdge input s
  | .gpiConfig off input role edge debounce markDeck => Sys2Proof.Machine.execGpiConfig off input role edge debounce markDeck s
  | .tallyConfig off output role => Sys2Proof.Machine.execTallyConfig off output role s

end Sys2Proof.Machine
end

