-- ==== Sys2Proof/Machine/Tick.lean ====
section
/-! DEFINITION. The passing of time (log entry 1): what the block does in a luma sample period in which no
command waits. The RTU timing counts one period, and the events that the volume places at that instant
come to wait. -/

namespace Sys2Proof.Machine

open Sys2Proof

/-- The RTU timing counts one luma sample period (R3), and so do the time without a line timing reference on REF and the
time since the last silence judgement (R2). -/
def Rtu.ticked (r : Rtu) : Rtu :=
  { r with
    timing := { r.timing with elapsed := r.timing.elapsed + 1 }
    quiet := r.quiet.map (· + 1), silence := r.silence.map (· + 1) }

/-- An SIU counts the time without a line timing reference (R42), and looks in its store for the output line that begins,
if one does (R47). DESIGN CHOICE (log entry 50): the look comes before the arrivals of that instant, so an input line that
begins to arrive at the very instant at which its output line begins is not found, and is a slip. -/
def Siu.ticked (s : Siu) (begins : Option OutputField) : Siu :=
  { s with
    quiet := s.quiet + 1
    lookedUp := match begins with
      | some f => some (s.look f.count f.line)
      | none => s.lookedUp }

/-- A luma sample period passes: the RTU timing, the times of silence, the bits on the deck lines, and at the beginning of
an output line the look-up of each SIU. -/
def Part.tick (p : Part) : Part :=
  { p with
    rtu := p.rtu.ticked
    sius := p.sius.map (fun s => s.ticked p.rtu.ticked.outputLineStart)
    ports := p.ports.map Port.ticked }

/-- Output line n begins at this instant: n + 1 line periods after the field start (R15). -/
def Rtu.outputLineNow (r : Rtu) (n : Nat) : Bool := r.timing.elapsed == (n + 1) * r.sentLine

/-- Reference line n begins at this instant: n - 1 line periods after the field start (R3). -/
def Rtu.referenceLineNow (r : Rtu) (n : Nat) : Bool := r.timing.elapsed == (n - 1) * r.sentLine

/-- The ports whose slot line begins at this instant (R84, R94). DESIGN CHOICE (log entry 56): ports with the same slot line
work in deck order, 0 to 3, since no rule says which of them works first. -/
def Part.slotLinesNow (p : Part) : List DeckNo :=
  allDecks.filter (fun d => p.rtu.referenceLineNow (p.port d).slotLine)

/-- The events of the lines that begin at this instant: the status block on line S (R29), the replies from
line S + 1 (R26), the slot lines (R94), the take at the first active line (R157). DESIGN CHOICE (log entry 59): the first
field after a reset makes a take too, though R156 has it made from what the reset left. -/
def Part.lineEvents (p : Part) : List Instr :=
  (if p.rtu.outputLineNow p.pku.inUse.status then [Instr.statusBlockWrite] else [])
  ++ (if p.rtu.outputLineNow (p.pku.inUse.status + 1) then [Instr.replyRecordWrite] else [])
  ++ p.slotLinesNow.map Instr.slotLine
  ++ (if p.rtu.outputLineNow (Config.firstActive p.rtu.timing.sentStd p.rtu.fieldId)
      then [Instr.activeSetTake] else [])

/-- The store slips of the output line that begins at this instant, the last lines of the field before among them
(R47), in the order of the inputs (log entry 56). -/
def Part.slipEvents (p : Part) : List Instr :=
  match p.rtu.outputLineStart with
  | some f => (allInputs.filter (fun i => (p.siu i).slips f.count f.line)).map (fun i => Instr.storeSlip i f.line)
  | none => []

/-- One longer-field period of a standard, in luma sample periods (R2, R42). -/
def longerField : Standard → Nat
  | .sys30 => 263 * 858
  | .sys25 => 313 * 864

/-- A silence judgement of REF falls due (R2): at the end of the span after the last line timing reference, and a
longer-field period after each silence judgement until a field timing reference (log entry 46). -/
def Rtu.silenceDue (r : Rtu) : Bool :=
  r.quiet.any (fun n => decide (silenceSpan ≤ n)) || r.silence.any (fun n => decide (longerField r.std ≤ n))

/-- Two long lines of silence on an input with a field in progress that is to be judged (R42). -/
def Siu.silenceDue (s : Siu) : Bool := s.judging && decide (silenceSpan ≤ s.quiet)

/-- A longer-field period of silence on an input that has not yet entered NO_SIGNAL by it (R42). -/
def Siu.noSignalDue (s : Siu) (std : Standard) : Bool :=
  decide (longerField std ≤ s.quiet) && (s.state != .noSignal || s.clean != 0 || s.matchedField.isSome)

/-- The judgements of silence that fall due at this instant (R2, R42). DESIGN CHOICE (log entry 57): they come before what
arrives at this instant, so a reference that arrives exactly at the end of a span does not prevent the judgement. -/
def Part.silenceEvents (p : Part) : List Instr :=
  (if p.rtu.silenceDue then [Instr.silenceJudgement] else [])
  ++ (allInputs.filter (fun i => (p.siu i).silenceDue)).map Instr.inputSilenceBad
  ++ (allInputs.filter (fun i => (p.siu i).noSignalDue p.rtu.std)).map Instr.inputNoSignal

/-- The frames whose last stop bit ends at this instant (R89). -/
def Part.sendEndEvents (p : Part) : List Instr :=
  (allDecks.filter (fun d => (p.port d).sendEndDue)).map Instr.frameSendEnd

/-- The events that fall due at this instant: the field start (R3) or those of the lines, the store slips, the judgements
of silence, and the ends of frames on the deck lines. The pins of the GPI inputs are taken as last seen. DESIGN CHOICE (log
entry 55): rows of one instant stand in this order, so that the take, the status block and the slot lines come before an
input state or lock state that changes at that very instant; and (log entry 57) before what arrives at that instant. -/
def Part.dueEvents (p : Part) : List Instr :=
  (if p.rtu.fieldStartDue then [Instr.fieldStart p.gtu.pins []] else p.lineEvents)
  ++ p.slipEvents ++ p.silenceEvents ++ p.sendEndEvents

/-- A luma sample period passes with no command waiting. -/
def State.idle (s : State) : State :=
  let p := s.part.tick
  { part := p, pending := p.dueEvents }

end Sys2Proof.Machine
end

