-- ==== Sys2Proof/Machine/Arrivals.lean ====
section
/-! DEFINITION. What comes in from the wires and how it becomes a waiting command: the lines of REF with the packets of
the control window (R2, R18 to R22, R37), reply bits and bytes on a deck line (R89, R96), and the lines of a source
input (R42, R46, R48, R49). -/

namespace Sys2Proof.Machine

open Sys2Proof

/-- A command or event comes to wait at the back of the queue. -/
def State.queue (s : State) (c : Instr) : State := { s with pending := s.pending ++ [c] }

/-! ## Operands of a payload (R37) -/

/-- The one-byte number at byte i. -/
def byteAt (bs : List Byte) (i : Nat) : Nat := (bs.getD i 0).toNat

/-- The number in the n bytes from byte i. -/
def numberAt (bs : List Byte) (i n : Nat) : Nat := numOf ((bs.drop i).take n)

/-- The signed number in two bytes from byte i. -/
def signedAt (bs : List Byte) (i : Nat) : Int := (BitVec.ofNat 16 (numberAt bs i 2)).toInt

/-- The label in the five bytes from byte i. -/
def labelAt (bs : List Byte) (i : Nat) : RawLabel :=
  { hh := byteAt bs i, mm := byteAt bs (i + 1), ss := byteAt bs (i + 2), ff := byteAt bs (i + 3)
    flags := byteAt bs (i + 4) }

/-- A choice byte and a label. -/
def labelChoiceAt (bs : List Byte) (i : Nat) : LabelChoice := { alt := byteAt bs i, label := labelAt bs (i + 1) }

/-- A choice byte and a three-byte number. -/
def lengthChoiceAt (bs : List Byte) (i : Nat) : NumberChoice :=
  { alt := byteAt bs i, value := numberAt bs (i + 1) 3 }

/-- A source entry. -/
def sourceEntryAt (bs : List Byte) (i : Nat) : SourceOperand :=
  { deck := byteAt bs i, play := labelAt bs (i + 1) }

/-- The key part, from its presence byte. -/
def keyAt (bs : List Byte) (i : Nat) : KeyOperands :=
  { presence := byteAt bs i, fillDeck := byteAt bs (i + 1), fillIn := labelAt bs (i + 2)
    keyInput := byteAt bs (i + 7), clip := numberAt bs (i + 8) 2, gain := byteAt bs (i + 10)
    invert := byteAt bs (i + 11), onOffset := numberAt bs (i + 12) 3, offOffset := numberAt bs (i + 15) 3 }

/-- EVENT_LOAD's operands (Table 8-2). -/
def eventOperandsOf (bs : List Byte) : EventOperands :=
  { slot := byteAt bs 0, kind := byteAt bs 1, recordIn := labelChoiceAt bs 2, length := lengthChoiceAt bs 8
    transition := byteAt bs 12, start := numberAt bs 13 3, duration := numberAt bs 16 2
    pattern := byteAt bs 18, curve := byteAt bs 19, reverse := byteAt bs 20, softness := byteAt bs 21
    preroll := numberAt bs 22 2, postroll := numberAt bs 24 2, hold := byteAt bs 26, tracks := byteAt bs 27
    key := keyAt bs 28, sourceCount := byteAt bs 46, entry1 := sourceEntryAt bs 47
    entry2 := sourceEntryAt bs 53 }

/-- The number of payload bytes that a kind's operands occupy (R21, R37); none for a kind not in Table
2-8. EVENT_LOAD's follows from its source count. -/
def payloadLength (kind : Nat) (bs : List Byte) : Option Nat :=
  match kind with
  | 0x10 => some 4 | 0x11 => some 3 | 0x12 => some 3 | 0x13 => some 1
  | 0x20 => some 5 | 0x21 => some 2
  | 0x30 => some 5 | 0x31 => some 7 | 0x32 => some 0 | 0x33 => some 0
  | 0x40 => some 3 | 0x41 => some 7 | 0x42 => some 1 | 0x43 => some 9 | 0x48 => some 6
  | 0x50 => some (47 + 6 * byteAt bs 46)
  | 0x51 => some 1 | 0x52 => some 1 | 0x53 => some 1
  | 0x58 => some 1 | 0x59 => some 0 | 0x5A => some 0 | 0x5B => some 0 | 0x5C => some 0 | 0x5D => some 1
  | 0x60 => some 3 | 0x61 => some 7 | 0x62 => some 7 | 0x63 => some 5 | 0x64 => some 35
  | 0x70 => some 5 | 0x71 => some 2
  | _ => none

/-- The command of a packet of a known kind and the right length (Table 2-8). -/
def commandOf (off kind : Nat) (bs : List Byte) : Instr :=
  let b := byteAt bs
  match kind with
  | 0x10 => .ctrlLines off (b 0) (b 1) (b 2) (b 3)
  | 0x11 => .clearNotices off (numberAt bs 0 3)
  | 0x12 => .noticeMask off (numberAt bs 0 3)
  | 0x13 => if b 0 = 1 then .resetPartEngine off else .resetPartFull off (b 0)
  | 0x20 => .inputConfig off (b 0) (b 1) (b 2) (b 3) (b 4)
  | 0x21 => .substPolicy off (b 0) (b 1)
  | 0x30 => .tcConfig off (b 0) (b 1) (b 2) (b 3) (b 4)
  | 0x31 => .markPush off (b 0) (labelChoiceAt bs 1)
  | 0x32 => .markPop off
  | 0x33 => .markClear off
  | 0x40 => .deckAssign off (b 0) (b 1) (b 2)
  | 0x41 => .deckParams off (b 0) (b 1) (b 2) (b 3) (b 4) (b 5) (b 6)
  | 0x42 => .deckRead off (b 0)
  | 0x43 => .deckDirect off (b 0) (b 1) (signedAt bs 2) (labelAt bs 4)
  | 0x48 => .chaseParams off (b 0) (b 1) (b 2) (b 3) (b 4) (b 5)
  | 0x50 => .eventLoad off (eventOperandsOf bs)
  | 0x51 => .eventClear off (b 0)
  | 0x52 => .eventRead off (b 0)
  | 0x53 => .eventArm off (b 0)
  | 0x58 => .listRun off (b 0)
  | 0x59 => .listStop off
  | 0x5A => .abort off
  | 0x5B => .release off
  | 0x5C => .endOpen off
  | 0x5D => .guardLimit off (b 0)
  | 0x60 => .xptSet off (b 0) (b 1) (b 2)
  | 0x61 => .keyParams off (b 0) (b 1) (b 2) (numberAt bs 3 2) (b 5) (b 6)
  | 0x62 => .autoTake off (b 0) (numberAt bs 1 2) (b 3) (b 4) (b 5) (b 6)
  | 0x63 => .patternLoad off (b 0) (b 1) (b 2) (b 3) (b 4)
  | 0x64 => .curveLoad off (b 0) ((List.range 17).map (fun i => numberAt bs (1 + 2 * i) 2))
  | 0x70 => .gpiConfig off (b 0) (b 1) (b 2) (b 3) (b 4)
  | 0x71 => .tallyConfig off (b 0) (b 1)
  | _ => .packetUnknownKind off kind

/-- A well-formed packet: unknown kind, wrong length, or the command (R21, R22). -/
def lookUp (off kind : Nat) (bs : List Byte) : Instr :=
  match payloadLength kind bs with
  | none => .packetUnknownKind off kind
  | some n => if bs.length = n ∧ (kind = 0x50 → 47 ≤ bs.length) then commandOf off kind bs
              else .packetWrongLength off kind

/-! ## A packet's words (R19, R20) -/

/-- A kind, length or payload word passes its test: bit 9 the inverse of bit 8, bit 8 the even parity of the
low eight bits. -/
def wordGood (w : Word10) : Bool :=
  (w.getLsbD 9 != w.getLsbD 8) && w.getLsbD 8 == oddOnes (w.setWidth 8)

/-- The byte a word carries. -/
def wordByte (w : Word10) : Byte := w.setWidth 8

/-- A check word passes for the words from kind through last payload word. -/
def checkGood (w : Word10) (body : List Word10) : Bool :=
  w.toNat % 512 == nineBitSum body && w.getLsbD 9 != w.getLsbD 8

/-- The payload of a packet from its words after the lead, or none where the packet is bad (R20). A line
that ends before the check word gives fewer words than the length asks for. -/
def payloadOf (ws : List Word10) : Option (List Byte) :=
  match ws with
  | k :: l :: rest =>
    let n := (wordByte l).toNat
    if wordGood k && wordGood l && decide (n ≤ 200) && decide (n < rest.length)
        && (rest.take n).all wordGood && checkGood (rest.getD n 0) (k :: l :: rest.take n)
    then some ((rest.take n).map wordByte) else none
  | _ => none

/-- The kind as received, 0 where the line ended before a kind word (R20). -/
def kindAsReceived : List Word10 → Nat
  | k :: _ => (wordByte k).toNat
  | [] => 0

/-- What a read line carries: no packet, or the command or event that its packet is (R19 to R22). -/
def readLine (off : Nat) (luma : List Word10) : Option Instr :=
  match luma with
  | a :: b :: c :: ws =>
    if [a, b, c] = leadWords then
      match payloadOf ws with
      | none => some (.packetBadFormat off (kindAsReceived ws))
      | some bs => some (lookUp off (kindAsReceived ws) bs)
    else none
  | _ => none

/-- The number of the reference line in progress: reference line n begins n - 1 line periods after the field start
(R3). -/
def Rtu.referenceLine (r : Rtu) : Nat := r.timing.elapsed / r.sentLine + 1

/-- The offset in the control window of the reference line in progress, where the PKU reads it: it is one of the eight
lines from W, and the RTU was LOCKED at the field start and is now (R17, R18). -/
def Part.readOffset (p : Part) : Option Nat :=
  if p.pku.openedLocked && p.rtu.lock == .locked
      && decide (p.pku.inUse.window ≤ p.rtu.referenceLine ∧ p.rtu.referenceLine ≤ p.pku.inUse.window + 7)
  then some (p.rtu.referenceLine - p.pku.inUse.window) else none

/-- A line timing reference on REF begins the span of R2 afresh. The further judgements after one of silence go on until
a field timing reference (log entry 46). -/
def Rtu.lineReference (r : Rtu) : Rtu := { r with quiet := some 0 }

/-- The PKU takes the reference line in progress, with its luma samples up to the end of its packet region (R18 to
R22). -/
def State.readRefLine (s : State) (luma : List Word10) : State :=
  match s.part.readOffset with
  | some off =>
    match readLine off (luma.take 720) with
    | some c => s.queue c
    | none => s
  | none => s

/-- A line of REF arrives: its line timing reference, and its luma samples (R2, R18 to R22). -/
def State.receiveRefLine (s : State) (luma : List Word10) : State :=
  { s with part := s.part.modRtu Rtu.lineReference }.readRefLine luma

/-! ## Reply bytes (R89, R96) -/

/-- The test of R96 on the reply byte at index i, given the code of the frame in flight and the bytes so
far with this one. -/
def replyByteBad (code i : Nat) (b : RxByte) (all : List RxByte) : Bool :=
  !b.good ||
    (match i with
     | 0 => b.data != 0x3C
     | 1 => b.data != byteOf (code + 0x80)
     | 2 => b.data != 12
     | 3 => decide (1 < b.data.toNat)
     | 5 => decide (8 < b.data.toNat)
     | 14 => decide (1 < b.data.toNat)
     | 15 => byteSum (all.map RxByte.data) != 0
     | _ => false)

/-- The transport of a code, 0 to 8 (Table 2-10). -/
def transportOf : Nat → Transport
  | 0 => .stopped
  | 1 => .still
  | 2 => .play
  | 3 => .variableSpeed
  | 4 => .fastFwd
  | 5 => .rewind
  | 6 => .cueing
  | 7 => .record
  | _ => .noTape

/-- The reply in the sixteen bytes of a good reply (Table 2-13). -/
def deckReplyOf (bs : List Byte) : DeckReply :=
  { refused := byteAt bs 3 == 1, reason := byteAt bs 4, transport := transportOf (byteAt bs 5)
    servo := (bs.getD 6 0).getLsbD 0, inhibit := (bs.getD 6 0).getLsbD 1, isLocal := (bs.getD 6 0).getLsbD 2
    speed := signedAt bs 7, label := labelAt bs 9, source := if byteAt bs 14 = 0 then .ltc else .ctl }

/-- The byte that eight data bits give, least significant first. -/
def byteOfBits (bits : List Bool) : Byte :=
  byteOf (bits.foldr (fun b a => switchCode b + 2 * a) 0)

/-- A byte as received, from the bits after its start bit: eight data bits, the parity bit, the stop bit. It is good
where parity is odd and the stop bit is there, and a byte fault otherwise (R89). -/
def rxByteOf (bits : List Bool) : RxByte :=
  let data := byteOfBits (bits.take 8)
  { data := data, good := (bits.getD 8 false == !oddOnes data) && bits.getD 9 false }

/-- A byte completes on a deck line (R89, R96): discarded with no reply awaited; else the reply is bad,
good, or goes on. -/
def State.receiveDeckByte (s : State) (d : DeckNo) (b : RxByte) : State :=
  match (s.part.port d).receiving with
  | none => s
  | some x =>
    let all := x.bytes ++ [b]
    if replyByteBad x.frame.code x.bytes.length b all then s.queue (.deckReplyBad d)
    else if all.length = 16 then s.queue (.deckReplyGood d (deckReplyOf (all.map RxByte.data)))
    else { s with part := s.part.modPort d (fun q => { q with flight := some { x with bytes := all } }) }

/-- The bits so far of a byte that comes in on a deck line. -/
def State.withIncoming (s : State) (d : DeckNo) (bits : Option (List Bool)) : State :=
  { s with part := s.part.modPort d (fun q => { q with incoming := bits }) }

/-- A bit time passes on the receive line of a port at this level. While the port sends nothing is taken in, and receiving
begins afresh with the first start bit after it; ten bits after a start bit make a byte (R89). DESIGN CHOICE (log entry
51): the first bit time that is not at the stop-bit level is taken as the start bit, also where no stop-bit level was seen
on the line since it turned to receive. -/
def State.receiveDeckBit (s : State) (d : DeckNo) (level : Bool) : State :=
  let q := s.part.port d
  if q.drives then s.withIncoming d none
  else
    match q.incoming with
    | none => if level then s else s.withIncoming d (some [])
    | some bits =>
      if bits.length < 9 then s.withIncoming d (some (bits ++ [level]))
      else (s.withIncoming d none).receiveDeckByte d (rxByteOf (bits ++ [level]))

/-! ## Lines of a source input (R42, R46, R48, R49) -/

/-- A VITC line as its luma samples give it (R49). -/
def vitcLineOf (luma : List Nat) : VitcLine := .cells (cellsOf luma)

/-- A line timing reference of the input opens the next line of its field (R42, R46). -/
def Siu.nextLine (s : Siu) : Siu := { s with line := s.line + 1, quiet := 0 }

/-- The cells of the line in progress are kept where it is one of the two VITC lines in use (R49, R52). -/
def Siu.keepVitc (s : Siu) (luma : List Nat) : Siu :=
  { s with
    vitcFirst := if s.line = s.vitcInUse.1 then vitcLineOf luma else s.vitcFirst
    vitcSecond := if s.line = s.vitcInUse.2 then vitcLineOf luma else s.vitcSecond }

/-- The later VITC line of the input field in progress has just ended, and the reading is still to be formed (R50). -/
def Siu.vitcEnded (s : Siu) : Bool := s.line == max s.vitcInUse.1 s.vitcInUse.2 + 1 && !s.formed

/-- A line of an input arrives: it goes into the elastic store and to the reading of VITC; the line after the later VITC
line brings the reading of the field (R46, R48 to R50). DESIGN CHOICE (log entry 53): a field timing reference in place of
that next line brings none. -/
def State.receiveInputLine (s : State) (i : Input) (v : VideoLine) : State :=
  let u := (s.part.siu i).nextLine
  let t : State := { s with part := s.part.modSiu i (fun _ => (u.storeLine s.part.rtu.std v).keepVitc v.luma) }
  if u.vitcEnded then t.queue (.vitcReading i u.vitcFirst u.vitcSecond) else t

end Sys2Proof.Machine
end

