-- ==== Sys2Proof/WellFormed.lean ====
section
/-! DEFINITION. When a command or event is well-formed: every operand of a host command fits its field of the
packet (R37) and its packet stands on one of the eight window lines (R18); an event is one that its rule
names. A value outside an operand's RANGE is well-formed: its owner clamps or refuses it. -/

namespace Sys2Proof

/-- The offset of a packet's line in the control window (R18, R27). -/
def offsetFits (off : Nat) : Bool := off < 8

/-- Numbers that fit one byte. -/
def bytesFit (ns : List Nat) : Bool := ns.all (fun n => n < 256)

/-- A number that fits `n` bytes. -/
def numberFits (n v : Nat) : Bool := v < 256 ^ n

/-- A signed number that fits two bytes. -/
def signedFits (v : Int) : Bool := -32768 ≤ v && v ≤ 32767

/-- A label's five bytes. -/
def RawLabel.fits (l : RawLabel) : Bool := bytesFit [l.hh, l.mm, l.ss, l.ff, l.flags]

/-- A label that holds zero. -/
def RawLabel.zero : RawLabel := ⟨0, 0, 0, 0, 0⟩

/-- A choice of label or alternative; the value field holds zero with the alternative (R37). -/
def LabelChoice.fits (x : LabelChoice) : Bool :=
  bytesFit [x.alt] && x.label.fits && (x.alt != 1 || x.label == .zero)

/-- A choice of number or alternative; the value field holds zero with the alternative (R37). -/
def NumberChoice.fits (x : NumberChoice) : Bool :=
  bytesFit [x.alt] && numberFits 3 x.value && (x.alt != 1 || x.value == 0)

/-- A source entry. -/
def SourceOperand.fits (x : SourceOperand) : Bool := bytesFit [x.deck] && x.play.fits

/-- A source entry that holds zero. -/
def SourceOperand.zero : SourceOperand := ⟨0, .zero⟩

/-- An absent key, whose fields hold zero (R37). -/
def KeyOperands.absent : KeyOperands := ⟨0, 0, .zero, 0, 0, 0, 0, 0, 0⟩

/-- The key part. -/
def KeyOperands.fits (x : KeyOperands) : Bool :=
  bytesFit [x.presence, x.fillDeck, x.keyInput, x.gain, x.invert] && x.fillIn.fits && numberFits 2 x.clip
    && numberFits 3 x.onOffset && numberFits 3 x.offOffset && (x.presence != 0 || x == .absent)

/-- The source list: a payload of at most 200 bytes holds 25 entries, and entries past the count hold zero. -/
def sourcesFit (x : EventOperands) : Bool :=
  decide (x.sourceCount ≤ 25) && x.entry1.fits && x.entry2.fits
    && (decide (1 ≤ x.sourceCount) || x.entry1 == .zero) && (decide (2 ≤ x.sourceCount) || x.entry2 == .zero)

/-- EVENT_LOAD's operands (Table 8-2). -/
def EventOperands.fits (x : EventOperands) : Bool :=
  bytesFit [x.slot, x.kind, x.transition, x.pattern, x.curve, x.reverse, x.softness, x.hold, x.tracks]
    && x.recordIn.fits && x.length.fits && numberFits 3 x.start && numberFits 2 x.duration
    && numberFits 2 x.preroll && numberFits 2 x.postroll && x.key.fits && sourcesFit x

/-- The kinds of Table 2-8. -/
def knownKinds : List Nat :=
  [0x10, 0x11, 0x12, 0x13, 0x20, 0x21, 0x30, 0x31, 0x32, 0x33, 0x40, 0x41, 0x42, 0x43, 0x48,
   0x50, 0x51, 0x52, 0x53, 0x58, 0x59, 0x5A, 0x5B, 0x5C, 0x5D, 0x60, 0x61, 0x62, 0x63, 0x64, 0x70, 0x71]

/-- A field that is well-formed of one of the standards (R1, R41). -/
def FieldObs.sound (o : FieldObs) : Bool :=
  o.closing == o.id.other && [Standard.sys30, Standard.sys25].any (fun std =>
    o.lineLen == Config.lineLen std && o.lines == Config.fieldLines std o.id)

/-- A reply's numbers fit their fields (Table 2-13). -/
def DeckReply.fits (r : DeckReply) : Bool := bytesFit [r.reason] && signedFits r.speed && r.label.fits

/-- A field start's order names each piece of work, and each reaction to an advance, at most once. -/
def orderFits (order : List FieldWork) : Bool :=
  decide (order.map FieldWork.piece).Nodup &&
    order.all (fun w => match w with
      | .advance _ first => decide first.Nodup
      | _ => true)

/-- A command or event that can come to the block. -/
def Instr.wellFormed : Instr → Bool
  | .powerOn => true
  | .resetLine => true
  | .fieldStart _ order => orderFits order
  | .refFieldWellFormed obs _ => obs.sound
  | .refFieldBad _ => true
  | .silenceJudgement => true
  | .refFieldOpened _ => true
  | .packetBadFormat off kind => offsetFits off && bytesFit [kind]
  | .packetUnknownKind off kind => offsetFits off && bytesFit [kind] && !knownKinds.contains kind
  | .packetWrongLength off kind => offsetFits off && knownKinds.contains kind
  | .statusBlockWrite => true
  | .replyRecordWrite => true
  | .ctrlLines off w30 s30 w25 s25 => offsetFits off && bytesFit [w30, s30, w25, s25]
  | .clearNotices off mask => offsetFits off && numberFits 3 mask
  | .noticeMask off mask => offsetFits off && numberFits 3 mask
  | .resetPartFull off scope => offsetFits off && bytesFit [scope] && scope != 1
  | .resetPartFullApply => true
  | .resetPartEngine off => offsetFits off
  | .inputConfig off input first30 second30 first25 second25 =>
    offsetFits off && bytesFit [input, first30, second30, first25, second25]
  | .substPolicy off input policy => offsetFits off && bytesFit [input, policy]
  | .inputFieldReference _ _ _ => true
  | .inputFieldWellFormed _ obs => obs.sound
  | .inputFieldBad _ _ => true
  | .inputSilenceBad _ => true
  | .inputNoSignal _ => true
  | .storeSlip _ line => decide (1 ≤ line ∧ line ≤ 313)
  | .vitcReading _ _ _ => true
  | .tcConfig off df pref0 pref1 pref2 pref3 => offsetFits off && bytesFit [df, pref0, pref1, pref2, pref3]
  | .positionStale _ => true
  | .markPush off deck position => offsetFits off && bytesFit [deck] && position.fits
  | .markPop off => offsetFits off
  | .markClear off => offsetFits off
  | .deckAssign off deck role input => offsetFits off && bytesFit [deck, role, input]
  | .deckParams off deck poll line playLead recordLead tolerance timeout =>
    offsetFits off && bytesFit [deck, poll, line, playLead, recordLead, tolerance, timeout]
  | .deckRead off deck => offsetFits off && bytesFit [deck]
  | .deckDirect off deck command speed cue =>
    offsetFits off && bytesFit [deck, command] && signedFits speed && cue.fits
  | .slotLine _ => true
  | .frameSendEnd _ => true
  | .deckReplyGood _ reply => reply.fits
  | .deckReplyBad _ => true
  | .deckTimeout _ => true
  | .chaseParams off gain slew window lockRun unlock sync =>
    offsetFits off && bytesFit [gain, slew, window, lockRun, unlock, sync]
  | .eventLoad off ops => offsetFits off && ops.fits
  | .eventClear off slot => offsetFits off && bytesFit [slot]
  | .eventRead off slot => offsetFits off && bytesFit [slot]
  | .eventArm off slot => offsetFits off && bytesFit [slot]
  | .listRun off slot => offsetFits off && bytesFit [slot]
  | .cueTimeout _ => true
  | .release off => offsetFits off
  | .rollPlayDue _ => true
  | .endOpen off => offsetFits off
  | .postrollEnd => true
  | .abort off => offsetFits off
  | .listStop off => offsetFits off
  | .guardTrip => true
  | .guardLimit off limit => offsetFits off && bytesFit [limit]
  | .activeSetTake => true
  | .xptSet off bg1 bg2 pvw => offsetFits off && bytesFit [bg1, bg2, pvw]
  | .keyParams off keyOn fill keyInput clip gain invert =>
    offsetFits off && bytesFit [keyOn, fill, keyInput, gain, invert] && numberFits 2 clip
  | .autoTake off kind duration pattern curve softness reverse =>
    offsetFits off && bytesFit [kind, pattern, curve, softness, reverse] && numberFits 2 duration
  | .autoTakeEnd => true
  | .patternLoad off pattern shape cellsX cellsY reverse =>
    offsetFits off && bytesFit [pattern, shape, cellsX, cellsY, reverse]
  | .curveLoad off curve points =>
    offsetFits off && bytesFit [curve] && points.length == 17 && points.all (numberFits 2)
  | .gpiAcceptedEdge _ => true
  | .gpiConfig off input role edge debounce markDeck =>
    offsetFits off && bytesFit [input, role, edge, debounce, markDeck]
  | .tallyConfig off output role => offsetFits off && bytesFit [output, role]

end Sys2Proof
end

