-- ==== Sys2Proof/Machine/HostPackets.lean ====
section
/-! DEFINITION. The host's side of the control packet: the kind and payload of every host command, written
from Table 2-8 and the operand forms of R37. -/

namespace Sys2Proof.Machine

open Sys2Proof

/-- A label operand's five bytes (Table 2-11). -/
def rawLabelBytes (l : RawLabel) : List Byte := [l.hh, l.mm, l.ss, l.ff, l.flags].map byteOf

/-- A choice byte and a label. -/
def labelChoiceBytes (x : LabelChoice) : List Byte := byteOf x.alt :: rawLabelBytes x.label

/-- A choice byte and a three-byte number. -/
def numberChoiceBytes (x : NumberChoice) : List Byte := byteOf x.alt :: numBytes 3 x.value

/-- A source entry. -/
def sourceOperandBytes (x : SourceOperand) : List Byte := byteOf x.deck :: rawLabelBytes x.play

/-- The key part, from its presence byte. -/
def keyOperandBytes (x : KeyOperands) : List Byte :=
  [byteOf x.presence, byteOf x.fillDeck] ++ rawLabelBytes x.fillIn ++ [byteOf x.keyInput]
  ++ numBytes 2 x.clip ++ [byteOf x.gain, byteOf x.invert] ++ numBytes 3 x.onOffset ++ numBytes 3 x.offOffset

/-- As many source entries as the count asks for. -/
def sourceListBytes (x : EventOperands) : List Byte :=
  (sourceOperandBytes x.entry1 ++ sourceOperandBytes x.entry2 ++ zeros 138).take (6 * x.sourceCount)

/-- EVENT_LOAD's payload (Table 8-2). -/
def eventOperandBytes (x : EventOperands) : List Byte :=
  [byteOf x.slot, byteOf x.kind] ++ labelChoiceBytes x.recordIn ++ numberChoiceBytes x.length
  ++ [byteOf x.transition] ++ numBytes 3 x.start ++ numBytes 2 x.duration
  ++ [byteOf x.pattern, byteOf x.curve, byteOf x.reverse, byteOf x.softness]
  ++ numBytes 2 x.preroll ++ numBytes 2 x.postroll ++ [byteOf x.hold, byteOf x.tracks]
  ++ keyOperandBytes x.key ++ [byteOf x.sourceCount] ++ sourceListBytes x

/-- A host command as its packet: window line offset, kind byte and payload. None for an event. -/
def hostPacket : Instr → Option (Nat × Nat × List Byte)
  | .ctrlLines off w30 s30 w25 s25 => some (off, 0x10, [w30, s30, w25, s25].map byteOf)
  | .clearNotices off mask => some (off, 0x11, numBytes 3 mask)
  | .noticeMask off mask => some (off, 0x12, numBytes 3 mask)
  | .resetPartFull off scope => some (off, 0x13, [byteOf scope])
  | .resetPartEngine off => some (off, 0x13, [1])
  | .inputConfig off input first30 second30 first25 second25 =>
    some (off, 0x20, [input, first30, second30, first25, second25].map byteOf)
  | .substPolicy off input policy => some (off, 0x21, [input, policy].map byteOf)
  | .tcConfig off df pref0 pref1 pref2 pref3 => some (off, 0x30, [df, pref0, pref1, pref2, pref3].map byteOf)
  | .markPush off deck position => some (off, 0x31, byteOf deck :: labelChoiceBytes position)
  | .markPop off => some (off, 0x32, [])
  | .markClear off => some (off, 0x33, [])
  | .deckAssign off deck role input => some (off, 0x40, [deck, role, input].map byteOf)
  | .deckParams off deck poll slotLine playLead recordLead tolerance timeout =>
    some (off, 0x41, [deck, poll, slotLine, playLead, recordLead, tolerance, timeout].map byteOf)
  | .deckRead off deck => some (off, 0x42, [byteOf deck])
  | .deckDirect off deck command speed cue =>
    some (off, 0x43, [byteOf deck, byteOf command] ++ numBytes 2 speed ++ rawLabelBytes cue)
  | .chaseParams off gain slew window lockRun unlock sync =>
    some (off, 0x48, [gain, slew, window, lockRun, unlock, sync].map byteOf)
  | .eventLoad off ops => some (off, 0x50, eventOperandBytes ops)
  | .eventClear off slot => some (off, 0x51, [byteOf slot])
  | .eventRead off slot => some (off, 0x52, [byteOf slot])
  | .eventArm off slot => some (off, 0x53, [byteOf slot])
  | .listRun off slot => some (off, 0x58, [byteOf slot])
  | .listStop off => some (off, 0x59, [])
  | .abort off => some (off, 0x5A, [])
  | .release off => some (off, 0x5B, [])
  | .endOpen off => some (off, 0x5C, [])
  | .guardLimit off limit => some (off, 0x5D, [byteOf limit])
  | .xptSet off bg1 bg2 pvw => some (off, 0x60, [bg1, bg2, pvw].map byteOf)
  | .keyParams off keyOn fill keyInput clip gain invert =>
    some (off, 0x61, [keyOn, fill, keyInput].map byteOf ++ numBytes 2 clip ++ [byteOf gain, byteOf invert])
  | .autoTake off kind duration pattern curve softness reverse =>
    some (off, 0x62, byteOf kind :: numBytes 2 duration ++ [pattern, curve, softness, reverse].map byteOf)
  | .patternLoad off pattern shape cellsX cellsY reverse =>
    some (off, 0x63, [pattern, shape, cellsX, cellsY, reverse].map byteOf)
  | .curveLoad off curve points => some (off, 0x64, byteOf curve :: points.flatMap (fun v => numBytes 2 v))
  | .gpiConfig off input role edge debounce markDeck =>
    some (off, 0x70, [input, role, edge, debounce, markDeck].map byteOf)
  | .tallyConfig off output role => some (off, 0x71, [output, role].map byteOf)
  | .powerOn => none
  | .resetLine => none
  | .fieldStart _ _ => none
  | .refFieldWellFormed _ _ => none
  | .refFieldBad _ => none
  | .silenceJudgement => none
  | .refFieldOpened _ => none
  | .packetBadFormat _ _ => none
  | .packetUnknownKind _ _ => none
  | .packetWrongLength _ _ => none
  | .statusBlockWrite => none
  | .replyRecordWrite => none
  | .resetPartFullApply => none
  | .inputFieldReference _ _ _ => none
  | .inputFieldWellFormed _ _ => none
  | .inputFieldBad _ _ => none
  | .inputSilenceBad _ => none
  | .inputNoSignal _ => none
  | .storeSlip _ _ => none
  | .vitcReading _ _ _ => none
  | .positionStale _ => none
  | .slotLine _ => none
  | .frameSendEnd _ => none
  | .deckReplyGood _ _ => none
  | .deckReplyBad _ => none
  | .deckTimeout _ => none
  | .cueTimeout _ => none
  | .rollPlayDue _ => none
  | .postrollEnd => none
  | .guardTrip => none
  | .activeSetTake => none
  | .autoTakeEnd => none
  | .gpiAcceptedEdge _ => none

/-- The luma words of a host command's packet, from the lead through the check word (Table 2-4). -/
def packetLine (kind : Nat) (payload : List Byte) : List Word10 := packetWords (byteOf kind) payload

end Sys2Proof.Machine
end

