-- ==== Sys2Proof/Safety.lean ====
section
/-! DEFINITION. What the volume promises of every state of a run, as checks on the part. Each is stated to
hold at reset and to be kept by every step. -/

namespace Sys2Proof.Machine

open Sys2Proof

/-- A slot's parts agree with its state (R117, R119): EMPTY holds nothing, every other state a record, LOADED
no arm results, ARMED and ACTIVE their arm results. -/
def Slot.sound (s : Slot) : Bool :=
  match s.state with
  | .empty => s.event.isNone && s.arm.isNone
  | .loaded => s.event.isSome && s.arm.isNone
  | .armed => s.event.isSome && s.arm.isSome
  | .active => s.event.isSome && s.arm.isSome
  | _ => s.event.isSome

/-- A slot is ACTIVE exactly when the engine names it (R117, R132). -/
def Part.activeSound (p : Part) : Bool :=
  (List.finRange 64).all (fun n => ((p.slot n).state == .active) == (p.eds.active == some n))

/-- The phases in which the EDS owns the preload (R158). -/
def Phase.owning : Phase → Bool
  | .roll => true
  | .record => true
  | .postroll => true
  | _ => false

/-- What the entries into IDLE leave (R132): no stop request, no guard, no cue record. -/
def Eds.idleSound (e : Eds) : Bool :=
  e.phase != .idle || (!e.stopRequest && (List.finRange 4).all (fun d => (e.cues.get d).isNone))

/-- The engine, the slots, the preload's owner and the chase agree (R117, R132, R138, R149, R158, R107,
R115). -/
def Part.engineSound (p : Part) : Bool :=
  p.eds.slots.cells.all Slot.sound && p.activeSound
  && (p.eds.phase == .idle) == p.eds.active.isNone
  && (p.mep.owner == .eds) == p.eds.phase.owning
  && p.eds.holdWaiting == (p.eds.phase == .hold)
  && (!p.eds.guardRunning || p.eds.phase == .record) && (p.eds.guardRunning || p.eds.guardCount == 0)
  && p.eds.idleSound
  && p.chu.syncWatch == (p.eds.phase == .record)
  && (p.eds.phase.owning || allDecks.all (fun d => !p.chasing d))

/-- At most one deck is RECORDER, no two decks hold one input (R79, R80), and record ON is wanted only of the
recorder (R81, R94). -/
def Part.tableSound (p : Part) : Bool :=
  decide ((allDecks.filter (fun d => (p.deck d).role == .recorder)).length ≤ 1)
  && allInputs.all (fun i => decide ((allDecks.filter (fun d => (p.deck d).input == some i)).length ≤ 1))
  && allDecks.all (fun d => !(p.deck d).wantRecord || (p.deck d).role == .recorder)

/-- Record ON is wanted only in RECORD, of an ACTIVE INSERT, and not once an OPEN event has been given its out-point
(R141, R144). -/
def Part.recordSound (p : Part) : Bool :=
  allDecks.all (fun d => !(p.deck d).wantRecord ||
    (p.eds.phase == .record && p.activeEvent.any (fun e =>
      e.kind == .insert && (e.length.isSome || p.eds.outPoint.isNone))))

/-- The mixer (R156, R158, R165): a take runs exactly while AUTO owns, the level is 0 while the host owns, the
curves stay in range and curve 0 stays linear. -/
def Part.mixerSound (p : Part) : Bool :=
  (p.mep.owner == .auto) == p.mep.take.isSome
  && (p.mep.owner != .host || p.mep.preload.level == 0)
  && p.mep.curves.cells.all (fun c => c.cells.all (fun v => decide (v ≤ 4096)))
  && p.mep.curves.get 0 == linearCurve

/-- The RTU (R4, R5 to R13): the counts in their ranges, a candidate exactly in ACQUIRE. -/
def Part.referenceSound (p : Part) : Bool :=
  decide (p.rtu.fieldCount < Config.countModulus) && decide (p.rtu.run ≤ 3) && decide (p.rtu.miss ≤ 1)
  && (p.rtu.lock == .acquire) == p.rtu.candidate.isSome

/-- The tape positions and marks (R58, R60, R71): positions and marks within the day of the counting in use,
at most eight marks. -/
def Part.positionsSound (p : Part) : Bool :=
  allDecks.all (fun d => decide ((p.deck d).position.position < p.counting.day)
    && decide ((p.deck d).position.acc < 256))
  && decide (p.tcu.marks.length ≤ markDepth)
  && p.tcu.marks.all (fun m => decide (m.position < p.counting.day))

/-- The console (R173, R175): a debounce of 1 to 8, and a run count below it. -/
def Part.consoleSound (p : Part) : Bool :=
  p.gtu.gpis.cells.all (fun g => decide (1 ≤ g.debounce ∧ g.debounce ≤ 8 ∧ g.run < g.debounce))

/-- The ports and the packet unit (R20, R92, R100): at most eight timeouts counted, at most 255 packet
errors. -/
def Part.countersSound (p : Part) : Bool :=
  allDecks.all (fun d => decide ((p.deck d).timeouts ≤ 8)) && decide (p.pku.errors ≤ 255)

end Sys2Proof.Machine
end

