-- ==== Sys2Proof/Certificates/Slice0/Obligations.lean ====
section
/-! DEFINITION. The statements for the provers. -/

open Sys2Proof Sys2Proof.Machine

/-! ## The machine -/

/-- A step runs the command at the front of the queue on the rest of the machine; no command stops, and none touches
the queue. The queue is the model's own (log entry 2, DESIGN CHOICE): the volume has no list of waiting commands. -/
def Obligations.StepRunsTheFrontCommand : Prop :=
  ∀ (p : Part) (c : Instr) (rest : List Instr),
    step { part := p, pending := c :: rest } = exec c { part := p, pending := rest }
    ∧ ∃ q : Part, exec c { part := p, pending := rest } = .next { part := q, pending := rest }

/-- With no command waiting a step is one luma sample period (the model's choice, log entry 1): the RTU timing, the time
without a line timing reference on REF, the time since the last silence judgement, the times of the inputs, and the time
of each frame on a deck line count it, and the rows that fall due at that instant come to wait. A field start falls due
at the end of the field counted (R3) or where one is owed (log entry 37); otherwise the events of the lines that begin
there: the status block and the replies (R26, R29), the slot lines (R94), the take (R157), also in the first field after
a reset (log entry 59, DESIGN CHOICE). At the beginning of each line of the output field every SIU looks in its store,
which holds for the line, and a store slip falls due where it finds none, the last lines of the field before among them
(R15, R47). Silence is judged two lines after the last line timing reference, and a longer-field period after each
silence judgement until a field timing reference (R2, R42; log entry 46, DEDUCED), also where a reference arrives at
that very instant (log entry 57, DESIGN CHOICE). A frame ends after eleven bits a byte at 38,400 baud of the nominal
sample period (R89; log entry 48, DESIGN CHOICE). Nothing else comes to wait, and a field start stands before what falls
due with it. In a field extended by a snap the lines keep the line length of the standard in which it began (log entry
28, DEDUCED), and no slip falls due where the field before is forgotten (log entry 22, DEDUCED). -/
def Obligations.IdleStepCountsTime : Prop :=
  ∀ s : State, s.pending = [] →
    let r := s.part.rtu
    let t := r.timing
    let now : Nat := t.elapsed + 1
    let line : Nat := Config.lineLen t.sentStd
    let longer : Nat := match r.std with
      | .sys30 => 263 * 858
      | .sys25 => 313 * 864
    let starts : Prop := t.owes ≠ none ∨ Config.fieldLen r.std t.counted ≤ now - t.placed
    let sent : Option OutputField :=
      if 2 * line ≤ now then some { id := r.fieldId, count := r.fieldCount, std := t.sentStd, since := now }
      else t.before.map (fun x =>
        { id := x.id, count := (r.fieldCount + 2 ^ 24 - 1) % 2 ^ 24, std := x.std, since := x.len + now })
    let begins (f : OutputField) (n : Nat) : Prop :=
      sent = some f ∧ f.since = (n + 1) * Config.lineLen f.std ∧ 1 ≤ n ∧ n ≤ Config.fieldLines f.std f.id
    ∃ (p : Part) (due : List Instr),
      step s = .next { part := p, pending := due }
      ∧ p = { s.part with
          rtu := { r with timing := { t with elapsed := now }, quiet := r.quiet.map (· + 1), silence := r.silence.map (· + 1) }
          sius := p.sius, ports := p.ports }
      ∧ (∀ i : Input,
          let u := s.part.siu i
          p.siu i = { u with quiet := u.quiet + 1, lookedUp := (p.siu i).lookedUp }
          ∧ (∀ f n, begins f n → (p.siu i).lookedUp = some { field := f.count, line := n, found := u.storedFor f.count n })
          ∧ ((∀ f n, ¬ begins f n) → (p.siu i).lookedUp = u.lookedUp))
      ∧ (∀ d : DeckNo, p.port d = { s.part.port d with
          sent := if (s.part.port d).sending = [] then (s.part.port d).sent else (s.part.port d).sent + 1 })
      ∧ (∀ c ∈ due, (∃ pins order, c = .fieldStart pins order) ∨ c = .statusBlockWrite ∨ c = .replyRecordWrite
          ∨ (∃ d, c = .slotLine d) ∨ c = .activeSetTake ∨ (∃ i n, c = .storeSlip i n) ∨ c = .silenceJudgement
          ∨ (∃ i, c = .inputSilenceBad i) ∨ (∃ i, c = .inputNoSignal i) ∨ ∃ d, c = .frameSendEnd d)
      ∧ (starts → due.head? = some (.fieldStart s.part.gtu.pins []))
      ∧ (∀ pins order, Instr.fieldStart pins order ∈ due ↔ starts ∧ pins = s.part.gtu.pins ∧ order = [])
      ∧ (Instr.statusBlockWrite ∈ due ↔ ¬ starts ∧ now = (s.part.pku.inUse.status + 1) * line)
      ∧ (Instr.replyRecordWrite ∈ due ↔ ¬ starts ∧ now = (s.part.pku.inUse.status + 2) * line)
      ∧ (∀ d : DeckNo, Instr.slotLine d ∈ due ↔ ¬ starts ∧ now = ((s.part.port d).slotLine - 1) * line)
      ∧ (Instr.activeSetTake ∈ due ↔ ¬ starts ∧ now = (Config.firstActive t.sentStd r.fieldId + 1) * line)
      ∧ (∀ (i : Input) (n : Nat), Instr.storeSlip i n ∈ due ↔
          ∃ f, begins f n ∧ (s.part.siu i).storedFor f.count n = none)
      ∧ (Instr.silenceJudgement ∈ due ↔
          (∃ n, r.quiet = some n ∧ 1728 ≤ n + 1) ∨ ∃ n, r.silence = some n ∧ longer ≤ n + 1)
      ∧ (∀ i : Input,
          let u := s.part.siu i
          (Instr.inputSilenceBad i ∈ due ↔ u.judging = true ∧ 1728 ≤ u.quiet + 1)
          ∧ (Instr.inputNoSignal i ∈ due ↔
              longer ≤ u.quiet + 1 ∧ ¬ (u.state = .noSignal ∧ u.clean = 0 ∧ u.matchedField = none)))
      ∧ ∀ d : DeckNo, Instr.frameSendEnd d ∈ due ↔
          ∃ f rest, (s.part.port d).sending = f :: rest ∧ 5625 * (11 * f.bytes.length) ≤ 16 * ((s.part.port d).sent + 1)

/-- What power-on leaves (R5, R33, R60, R71, R90, R117, R132), and that every promise of Safety.lean holds of it. -/
def Obligations.ResetState : Prop :=
  let p := State.reset.part
  State.reset.pending = []
  ∧ p.rtu.lock = .noRef ∧ p.rtu.std = .sys30 ∧ p.rtu.candidate = none ∧ p.rtu.run = 0 ∧ p.rtu.miss = 0
  ∧ p.rtu.fieldCount = 0 ∧ p.rtu.fieldId = .one
  ∧ p.pku.lines30 = { window := 12, status := 10 } ∧ p.pku.lines25 = { window := 8, status := 7 }
  ∧ (∀ n : Notice, p.noticeSet n = (n == .refLost)) ∧ (∀ n : Notice, p.pku.mask.getLsbD n.bit = true)
  ∧ p.pku.errors = 0 ∧ p.pku.building = [] ∧ p.pku.toWrite = [] ∧ p.pku.cause = .powerOn
  ∧ (∀ d : DeckNo, (p.deck d).role = .noRole ∧ (p.deck d).line = .unknown ∧ (p.deck d).position.valid = false
      ∧ (p.port d).flight = none ∧ (p.port d).prescaler = 0)
  ∧ p.tcu.marks = [] ∧ (∀ n : SlotNo, p.slot n = Slot.empty) ∧ p.eds.phase = .idle ∧ p.eds.cursor = 0
  ∧ p.eds.guardLimit = 10 ∧ p.mep.owner = .host ∧ p.mep.take = none
  ∧ p.engineSound = true ∧ p.tableSound = true ∧ p.recordSound = true ∧ p.mixerSound = true
  ∧ p.referenceSound = true ∧ p.positionsSound = true ∧ p.consoleSound = true ∧ p.countersSound = true

/-- Every host command places exactly one reply, of its kind and its line's offset, at the end of the list being
built; and a command refused with BAD_VALUE, BUSY, STATE or NO_MARK leaves everything else as it was, but for a mark
that its arm popped, which the reply then reports. -/
def Obligations.OneReplyPerHostCommand : Prop :=
  ∀ (i : Instr) (s t : State) (off kind : Nat) (payload : List Byte),
    hostPacket i = some (off, kind, payload) → exec i s = .next t →
    ∃ r : Reply, t.part.pku.building = s.part.pku.building ++ [r] ∧ r.kind = kind ∧ r.offset = off
      ∧ (r.result ∈ [Result.badValue, .busy, .state, .noMark] →
          ∃ left : List Mark,
            t.part = { s.part with
              pku := { s.part.pku with building := s.part.pku.building ++ [r] }
              tcu := { s.part.tcu with marks := left } }
            ∧ (left = s.part.tcu.marks ∨ (left = s.part.tcu.marks.tail ∧ r.notRestored = true)))

/-! ## Resets and field starts -/

/-- Power-on and the reset line set every block to its reset value, with their own reset cause (R5, R33, R34).
RESET_PART of scope FULL is refused with STATE while a slot is ACTIVE, and otherwise leaves one reset pending (R35); a
scope other than FULL or ENGINE is refused. That the whole state is equal to the reset state also says what becomes of
the fields that are the model's own (log entry 9, DESIGN CHOICE) and that the levels at the GPI pins, which are outside
the part, stay as they are (log entry 10, DESIGN CHOICE): those two clauses are the model's. -/
def Obligations.ResetCommands : Prop :=
  ∀ (s : State) (off scope : Nat),
    let restarted (cause : ResetCause) : Part := { Part.reset cause with
      gtu := { Gtu.reset with pins := s.part.gtu.pins } }
    let asked : Part := { s.part with pku := { s.part.pku with fullPending := true } }
    exec .powerOn s = .next { s with part := restarted .powerOn }
    ∧ exec .resetLine s = .next { s with part := restarted .resetLine }
    ∧ (s.part.eds.active = none → exec (.resetPartFull off 0) s
      = .next { s with part := asked.reply 0x13 off .accepted })
    ∧ (s.part.eds.active ≠ none →
        exec (.resetPartFull off 0) s = .next { s with part := s.part.reply 0x13 off .state })
    ∧ exec (.resetPartFull off 1) s = exec (.resetPartEngine off) s
    ∧ (2 ≤ scope → exec (.resetPartFull off scope) s = .next { s with part := s.part.reply 0x13 off (.badValue 1) })

/-- A field start without a pending full reset, whatever order its work is asked for in. The count advances modulo 2^24,
the field takes the identity that follows in the RTU timing, and the reply lists and line settings move on (R3, R4,
R18, R26); the lock state, the standard and the counts of the RTU are untouched. What the RTU timing keeps of the field
before is the model's own (log entry 22), and so is a field start that is owed (log entry 37). In CUE, with nothing else
at work on the engine, each cue timer of a deck that has not reached cue counts down by one, and one that reaches 0
fails the event with CUE_TIMEOUT (R136). In POSTROLL the count goes down by one, and at 0 the event ends as DONE (R145).
In RECORD a running guard counts up by one, and at the limit it trips and the event fails with REF_LOST (R149); this
is said of a recorder whose record is not valid and of one that advances short of the out-point, with no record going
stale and no chase computation held. -/
def Obligations.FieldStartCounts : Prop :=
  ∀ (s : State) (pins : BitVec 4) (order : List FieldWork), s.part.pku.fullPending = false →
    let r := s.part.rtu
    let t := r.timing
    let e := s.part.eds
    let c := s.part.counting
    let quiet : Prop := ∀ g : Fin 4, (s.part.gtu.gpis.get g).role = .noRole
    let counted : Rtu := { r with fieldCount := (r.fieldCount + 1) % 2 ^ 24 }
    let tick (c : CueRecord) : CueRecord := if c.state = .reached then c else { c with timer := c.timer - 1 }
    let expired : Prop := ∃ d : DeckNo, (e.cues.get d).any (fun c => c.state != .reached && decide (c.timer ≤ 1)) = true
    ∃ p : Part, exec (.fieldStart pins order) s = .next { s with part := p }
      ∧ (t.owes = none → p.rtu = { counted with
          fieldId := t.counted.other
          timing := { elapsed := 0, placed := 0, counted := t.counted.other, sentStd := r.std, opened := true
                      owes := none, before := some { len := t.placed + Config.fieldLen r.std t.counted, id := r.fieldId
                                                     std := t.sentStd } } })
      ∧ (∀ x, t.owes = some x → p.rtu = { counted with
          fieldId := x.1
          timing := { elapsed := t.elapsed - t.placed, placed := 0, counted := t.counted, sentStd := x.2, opened := true
                      owes := none, before := some { len := t.placed, id := r.fieldId, std := t.sentStd } } })
      ∧ p.pku.toWrite = s.part.pku.building ∧ p.pku.building = [] ∧ p.pku.openedLocked = (r.lock == .locked)
      ∧ p.pku.inUse = (match r.std with
          | .sys30 => s.part.pku.lines30
          | .sys25 => s.part.pku.lines25)
      ∧ p.sius = s.part.sius
      ∧ (e.phase = .cue → e.guardRunning = false → quiet →
          (¬ expired → p.eds = { e with cues := e.cues.map (Option.map tick) })
          ∧ (expired → ∀ n, e.active = some n →
              p.slot n = { s.part.slot n with state := .failed, run := { (s.part.slot n).run with reason := .cueTimeout } }
              ∧ p.eds.phase = .idle ∧ p.eds.active = none ∧ p.noticeSet .eventFailed = true))
      ∧ (e.phase = .postroll → e.guardRunning = false → quiet → ∀ n, e.active = some n →
          (1 < e.postroll → p.eds.postroll = e.postroll - 1 ∧ p.eds.phase = .postroll ∧ p.eds.active = some n)
          ∧ (e.postroll ≤ 1 → (p.slot n).state = .done ∧ (p.slot n).run.reason = .noReason
              ∧ p.noticeSet .eventDone = true))
      ∧ (e.phase = .record → e.guardRunning = true → quiet →
          (∀ d : DeckNo, (s.part.deck d).position.age < 30 ∧ (s.part.chu.own.get d).pending = false
            ∧ ((s.part.deck d).role = .recorder → (s.part.deck d).position.valid = true → ∀ o, e.outPoint = some o →
                let k := s.part.deck d
                c.sym ((k.position.advanced c.day k.transport k.speed).position - 2 * (o : Int)) < 0)) →
          (min 60 (e.guardCount + 1) < e.guardLimit → p.eds = { e with
            guardCount := min 60 (e.guardCount + 1), progress := p.eds.progress } ∧ e.progress ≤ p.eds.progress)
          ∧ (e.guardLimit ≤ min 60 (e.guardCount + 1) → ∀ n, e.active = some n →
              p.slot n = { s.part.slot n with state := .failed, run := { (s.part.slot n).run with reason := .refLost } }
              ∧ p.eds.phase = .idle ∧ p.noticeSet .guardTrip = true ∧ p.noticeSet .eventFailed = true))

/-- A pending full reset is applied at the field start, and by RESET_PART_FULL_APPLY: every block at its reset value
with cause COMMAND, field count 0, and the replies of the field carried across (R5, R36). The value of every field that
is the model's own, the levels at the pins kept as they are, and that the field before is forgotten are the model's
choices (log entries 9, 10 and 22). -/
def Obligations.FullResetApplies : Prop :=
  ∀ (s : State) (pins : BitVec 4) (order : List FieldWork), s.part.pku.fullPending = true →
    let applied (levels : BitVec 4) : Part := { Part.reset .command with
      rtu := { Rtu.reset with timing := { Rtu.reset.timing with opened := true } }
      pku := { Pku.reset .command with toWrite := s.part.pku.building }
      gtu := { Gtu.reset with pins := levels } }
    exec (.fieldStart pins order) s = .next { s with part := applied pins }
    ∧ exec .resetPartFullApply s = .next { s with part := applied s.part.gtu.pins }

/-! ## Reference timing -/

/-- A field timing reference opens a REF field and ends a silence; with no REF field in progress a reference that closes
one does just that, since there is none to judge (R1, R2). A REF field in progress that is well-formed with the identity
it was opened with starts ACQUIRE in NO_REF, and in ACQUIRE the run of the candidate grows or restarts, up to three (R6,
R7). In FREEWHEEL one of the standard in effect counts, up to three (R12), and one of the other standard is a detected
standard change: ACQUIRE with that standard as candidate, STANDARD_CHANGE and not REF_LOST (R13), the positions and
marks lost (R69), a last-sent CUE_TO UNKNOWN and a pending direct CUE_TO dropped (R88), an active event failed with
STANDARD_CHANGE, every ARMED slot disarmed and all counts of the slots absent (R150). The count at which a reference
arrives becomes the count of the RTU timing (log entry 8, DESIGN CHOICE). Outside that change nothing but the RTU
changes. -/
def Obligations.ReferenceAcquired : Prop :=
  ∀ (s : State) (id : FieldId) (obs : FieldObs) (time : Nat),
    let r := s.part.rtu
    let opened (f : FieldId) (at_ : Timing) : Rtu :=
      { r with refField := some f, quiet := some 0, silence := none, timing := at_ }
    let seen : Rtu := opened obs.closing { r.timing with elapsed := time }
    exec (.refFieldOpened id) s = .next { s with part := { s.part with rtu := opened id r.timing } }
    ∧ (r.refField = none → exec (.refFieldWellFormed obs time) s = .next { s with part := { s.part with rtu := seen } })
    ∧ ∀ (f : FieldId) (std : Standard), r.refField = some f → standardOf { obs with id := f } = some std →
        let starts : Rtu := { seen with lock := .acquire, candidate := some std, run := 1, miss := 0 }
        (r.lock = .noRef → exec (.refFieldWellFormed obs time) s = .next { s with part := { s.part with rtu := starts } })
        ∧ (r.lock = .acquire → (r.run = 0 ∨ r.candidate ≠ some std) →
            exec (.refFieldWellFormed obs time) s = .next { s with part := { s.part with rtu := starts } })
        ∧ (r.lock = .acquire → r.run ≠ 0 → r.candidate = some std → r.run < 3 →
            exec (.refFieldWellFormed obs time) s
              = .next { s with part := { s.part with rtu := { seen with run := r.run + 1, miss := 0 } } })
        ∧ (r.lock = .freewheel → std = r.std → r.run < 3 →
            exec (.refFieldWellFormed obs time) s
              = .next { s with part := { s.part with rtu := { seen with run := r.run + 1 } } })
        ∧ (r.lock = .freewheel → std ≠ r.std →
            ∃ p : Part, exec (.refFieldWellFormed obs time) s = .next { s with part := p } ∧ p.rtu = starts
              ∧ p.noticeSet .standardChange = true ∧ p.noticeSet .refLost = s.part.noticeSet .refLost
              ∧ p.tcu.marks = [] ∧ p.tcu.settled = false ∧ (∀ d : DeckNo, (p.deck d).position.valid = false
                ∧ (p.deck d).sent = (match (s.part.deck d).sent with | .cueTo _ => .unknown | x => x)
                ∧ (p.deck d).direct = (s.part.deck d).direct.filter (fun x => x.command != .cueTo))
              ∧ p.eds.active = none ∧ (∀ n : SlotNo, (p.slot n).arm = none ∧ (p.slot n).state ≠ .armed)
              ∧ ∀ n, s.part.eds.active = some n → p.slot n = { s.part.slot n with
                  state := .failed, arm := none
                  run := { (s.part.slot n).run with reason := .standardChange, recordOn := none, recordOff := none } })

/-- A bad judgement of REF in each lock state: of a field that can no longer be well-formed, after which no REF field is
in progress; of silence; or of a field that its closing reference shows to be well-formed of no standard (R1, R2).
Nothing in NO_REF, the run lost in ACQUIRE and FREEWHEEL, a miss in LOCKED; the second one in a row falls back to
NO_REF or FREEWHEEL, the latter with REF_LOST (R6, R7, R10, R11, R12). Leaving LOCKED fails an event in ROLL with REF_LOST
(R146); in RECORD it starts the guard with count 0, which trips at once where the limit is 0 (R149); in every other phase
it leaves the engine alone. With no REF field in progress REF_FIELD_BAD judges nothing. That the closing reference of a
field of no standard opens the next REF field to be judged is log entry 17 (DEDUCED); that a silence judgement leaves a
span that has not ended to be judged is log entry 46 (DEDUCED). A closing reference sets the count of the RTU timing (log
entry 8, DESIGN CHOICE). -/
def Obligations.ReferenceJudgedBad : Prop :=
  ∀ (s : State) (cause : BadCause) (obs : FieldObs) (time : Nat) (c : Instr) (r : Rtu),
    let x := s.part.rtu
    let e := s.part.eds
    (x.refField = none → exec (.refFieldBad cause) s = .next s)
    ∧ ((c = .refFieldBad cause ∧ x.refField ≠ none ∧ r = { x with refField := none })
        ∨ (c = .silenceJudgement ∧ r = { x with
            refField := none, quiet := x.quiet.filter (fun n => decide (n < 1728)), silence := some 0 })
        ∨ (c = .refFieldWellFormed obs time ∧ x.refField ≠ none
            ∧ (∀ f, x.refField = some f → standardOf { obs with id := f } = none)
            ∧ r = { x with refField := some obs.closing, quiet := some 0, silence := none
                           timing := { x.timing with elapsed := time } }) →
      let leaves (y : Rtu) : Prop := exec c s = .next { s with part := { s.part with rtu := y } }
      let lost (p : Part) : Prop := ∀ n, e.active = some n →
        p.slot n = { s.part.slot n with state := .failed, run := { (s.part.slot n).run with reason := .refLost } }
        ∧ p.eds.phase = .idle ∧ p.eds.active = none ∧ p.noticeSet .eventFailed = true
      (r.lock = .noRef → leaves r)
      ∧ (r.lock = .acquire → r.miss = 0 → leaves { r with run := 0, miss := 1 })
      ∧ (r.lock = .acquire → r.miss = 1 → leaves { r with lock := .noRef, run := 0, miss := 0, candidate := none })
      ∧ (r.lock = .freewheel → leaves { r with run := 0 })
      ∧ (r.lock = .locked → r.miss = 0 → leaves { r with miss := 1 })
      ∧ (r.lock = .locked → r.miss = 1 →
          ∃ p : Part, exec c s = .next { s with part := p } ∧ p.noticeSet .refLost = true
            ∧ p.rtu = { r with lock := .freewheel, run := 0, miss := 0 } ∧ p.sius = s.part.sius ∧ p.gtu = s.part.gtu
            ∧ (e.phase = .roll → lost p)
            ∧ (e.phase = .record → e.guardLimit ≠ 0 → p.eds = { e with guardRunning := true, guardCount := 0 })
            ∧ (e.phase = .record → e.guardLimit = 0 → lost p ∧ (e.active ≠ none → p.noticeSet .guardTrip = true))
            ∧ (e.phase ≠ .roll → e.phase ≠ .record → p.eds = e)))

/-- A well-formed field of the standard in effect in LOCKED (R10), its closing reference arriving at a count of the RTU
timing (log entry 8, DESIGN CHOICE). It is in step where that instant is a field start, one that has just opened the
field in progress or one that is due, and the reference opens a field of the identity which that field start gives: the
miss count is cleared and nothing else changes. Out of step it is a miss, the second of which loses REF (R11): an event
in ROLL fails with REF_LOST (R146), and in RECORD the guard starts, and trips at once where its limit is 0 (R149). A
field of the other standard leaves LOCKED for ACQUIRE with STANDARD_CHANGE, and the tape positions and marks are lost
(R13, R69); a last-sent CUE_TO becomes UNKNOWN and a pending direct CUE_TO is dropped (R88). No event stays ACTIVE
across it: it fails with STANDARD_CHANGE, or with REF_LOST where the leaving of LOCKED, which is handed first (log entry
14, DEDUCED), fails it. Every ARMED slot is disarmed, and all arm results and recorded fields become absent (R130,
R150). -/
def Obligations.ReferenceJudgedInLocked : Prop :=
  ∀ (s : State) (obs : FieldObs) (time : Nat) (f : FieldId) (std : Standard), s.part.rtu.refField = some f →
    standardOf { obs with id := f } = some std → s.part.rtu.lock = .locked →
    let r : Rtu := { s.part.rtu with
      refField := some obs.closing, quiet := some 0, silence := none, timing := { s.part.rtu.timing with elapsed := time } }
    let e := s.part.eds
    let t := r.timing
    let inStep : Prop :=
      if t.opened = true ∧ time = 0 then r.fieldId = obs.closing
      else time - t.placed = Config.fieldLen r.std t.counted ∧ t.counted.other = obs.closing
    let lost (p : Part) : Prop := ∀ n, e.active = some n →
      p.slot n = { s.part.slot n with state := .failed, run := { (s.part.slot n).run with reason := .refLost } }
      ∧ p.eds.phase = .idle ∧ p.eds.active = none ∧ p.noticeSet .eventFailed = true
    (std = r.std → inStep →
      exec (.refFieldWellFormed obs time) s = .next { s with part := { s.part with rtu := { r with miss := 0 } } })
    ∧ (std = r.std → ¬ inStep → r.miss = 0 →
      exec (.refFieldWellFormed obs time) s = .next { s with part := { s.part with rtu := { r with miss := 1 } } })
    ∧ (std = r.std → ¬ inStep → r.miss = 1 →
      ∃ p : Part, exec (.refFieldWellFormed obs time) s = .next { s with part := p } ∧ p.noticeSet .refLost = true
        ∧ p.rtu = { r with lock := .freewheel, run := 0, miss := 0 } ∧ p.sius = s.part.sius ∧ p.gtu = s.part.gtu
        ∧ (e.phase = .roll → lost p)
        ∧ (e.phase = .record → e.guardLimit ≠ 0 → p.eds = { e with guardRunning := true, guardCount := 0 })
        ∧ (e.phase = .record → e.guardLimit = 0 → lost p ∧ (e.active ≠ none → p.noticeSet .guardTrip = true))
        ∧ (e.phase ≠ .roll → e.phase ≠ .record → p.eds = e))
    ∧ (std ≠ r.std →
      ∃ p : Part, exec (.refFieldWellFormed obs time) s = .next { s with part := p }
        ∧ p.rtu = { r with lock := .acquire, candidate := some std, run := 1, miss := 0 }
        ∧ p.noticeSet .standardChange = true ∧ p.tcu.marks = [] ∧ p.tcu.settled = false
        ∧ (∀ d : DeckNo, (p.deck d).position.valid = false
            ∧ (p.deck d).sent = (match (s.part.deck d).sent with | .cueTo _ => .unknown | x => x)
            ∧ (p.deck d).direct = (s.part.deck d).direct.filter (fun x => x.command != .cueTo))
        ∧ p.eds.active = none
        ∧ (∀ n : SlotNo, (p.slot n).arm = none ∧ (p.slot n).state ≠ .armed)
        ∧ ∀ n, e.active = some n → p.noticeSet .eventFailed = true ∧ p.slot n = { s.part.slot n with
            state := .failed, arm := none
            run := { (s.part.slot n).run with
              reason := if e.phase = .roll ∨ (e.phase = .record ∧ e.guardLimit = 0) then .refLost else .standardChange
              recordOn := none, recordOff := none } })

/-- The confirming reference (R8, R9, R14): the RTU enters LOCKED with its counts cleared, in the standard of the
four fields. Where that is the standard in effect and the timings agree (the reference arrives at a field start and gives
the identity which that field start gives), the timing stays; otherwise REF_JUMP is set and the timing is placed on REF; a
standard that takes effect sets STANDARD_CHANGE and fails an active event with it (R150), and at each SIU, whose input
state is kept, the clean count becomes 0 and the judgement in progress is abandoned (R45); a last-sent CUE_TO becomes
UNKNOWN and a pending direct CUE_TO is dropped (R88). The counting becomes settled. In
the standard that was in effect, a running guard stops without REF_JUMP and trips with it (R149), and a move out of CUE,
where every deck of the event has reached cue, or out of HOLD, where a release is latched, is made (R137, R138). The
reference arrives at a count of the RTU timing (log entry 8, DESIGN CHOICE). That a field start due at the very instant of
a snap is kept to be declared is the model's choice (log entry 37); that no candidate standard stands after the entry to
LOCKED is its reading of R7, since R8 does not say so (log entry 21, DEDUCED). -/
def Obligations.ConfirmingReference : Prop :=
  ∀ (s : State) (obs : FieldObs) (time : Nat) (f : FieldId) (std : Standard), s.part.rtu.refField = some f →
    standardOf { obs with id := f } = some std → s.part.rtu.run = 3 →
    (s.part.rtu.lock = .acquire ∧ s.part.rtu.candidate = some std)
      ∨ (s.part.rtu.lock = .freewheel ∧ std = s.part.rtu.std) →
    let r : Rtu := { s.part.rtu with
      refField := some obs.closing, quiet := some 0, silence := none, timing := { s.part.rtu.timing with elapsed := time } }
    let t := r.timing
    let e := s.part.eds
    let steady : Prop := std = r.std
      ∧ if t.opened = true ∧ time = 0 then r.fieldId = obs.closing
        else time - t.placed = Config.fieldLen r.std t.counted ∧ t.counted.other = obs.closing
    let due : Option (FieldId × Standard) :=
      if time - t.placed = Config.fieldLen r.std t.counted then some (t.counted.other, r.std) else none
    let locked : Rtu := { r with lock := .locked, run := 0, miss := 0, candidate := none, std := std }
    let reached : Prop := ∀ d : DeckNo, s.part.inActiveEvent d = true →
      (e.cues.get d).map CueRecord.state = some .reached
    let rolls (p : Part) : Prop :=
      p.eds.phase = .roll ∧ p.eds.holdWaiting = false ∧ p.mep.owner = .eds ∧ p.mep.preload.level = 0
    ∃ p : Part, exec (.refFieldWellFormed obs time) s = .next { s with part := p }
      ∧ (steady → p.rtu = locked ∧ p.noticeSet .refJump = s.part.noticeSet .refJump)
      ∧ (¬ steady → p.noticeSet .refJump = true
          ∧ p.rtu = { locked with timing := { t with placed := time, counted := obs.closing, owes := due } })
      ∧ p.tcu.settled = true
      ∧ (std = r.std → p.sius = s.part.sius)
      ∧ (std ≠ r.std → (∀ i : Input, p.siu i = { s.part.siu i with clean := 0, judging := false, closedJudging := false })
          ∧ ∀ d : DeckNo, (p.deck d).position.valid = false
            ∧ (p.deck d).sent = (match (s.part.deck d).sent with | .cueTo _ => .unknown | x => x)
            ∧ (p.deck d).direct = (s.part.deck d).direct.filter (fun x => x.command != .cueTo))
      ∧ (std ≠ r.std → p.noticeSet .standardChange = true ∧ p.tcu.marks = [] ∧ ∀ n, e.active = some n →
          p.eds.active = none ∧ p.noticeSet .eventFailed = true ∧ p.slot n = { s.part.slot n with
            state := .failed, arm := none
            run := { (s.part.slot n).run with reason := .standardChange, recordOn := none, recordOff := none } })
      ∧ (std = r.std → e.guardRunning = true →
          (steady → e.phase = .record → p.eds = { e with guardRunning := false, guardCount := 0 })
          ∧ (¬ steady → ∀ n, e.active = some n → p.noticeSet .guardTrip = true ∧ p.eds.phase = .idle
              ∧ p.slot n = { s.part.slot n with state := .failed, run := { (s.part.slot n).run with reason := .refLost } }))
      ∧ (std = r.std → e.guardRunning = false →
          (e.phase ≠ .cue → e.phase ≠ .hold → p.eds = e)
          ∧ (e.phase = .hold → e.latch = false → p.eds = e)
          ∧ (e.phase = .hold → e.latch = true → s.part.activeEvent ≠ none → rolls p ∧ p.eds.latch = false)
          ∧ (e.phase = .cue → ¬ reached → p.eds = e)
          ∧ (e.phase = .cue → reached → ∀ x, s.part.activeEvent = some x →
              (x.hold = .noHold → rolls p ∧ p.eds.latch = e.latch)
              ∧ (x.hold = .beforeRoll → e.latch = true → rolls p ∧ p.eds.latch = false)
              ∧ (x.hold = .beforeRoll → e.latch = false → p.eds = { e with phase := .hold, holdWaiting := true }
                  ∧ p.noticeSet .holdWaiting = true)))

/-- The field count and the field identity move at field starts and resets only (R4, R5): no other command changes
them. -/
def Obligations.FieldCountMovesAtFieldStartsOnly : Prop :=
  ∀ (i : Instr) (s t : State), (∀ pins order, i ≠ .fieldStart pins order) → i ≠ .powerOn → i ≠ .resetLine →
    i ≠ .resetPartFullApply → exec i s = .next t →
    t.part.rtu.fieldCount = s.part.rtu.fieldCount ∧ t.part.rtu.fieldId = s.part.rtu.fieldId

/-- Every step keeps the RTU's counts in range, the GPI run counts below their debounce, and the timeout and error counts
at their limits (R4 to R13, R20, R100, R173, R175), and a candidate standard exactly in ACQUIRE: R7 names one while the
RTU acquires, and that none stands in LOCKED or FREEWHEEL is the model's reading (log entry 21, DEDUCED). -/
def Obligations.CountersStaySound : Prop :=
  ∀ s t : State, (s.part.referenceSound && s.part.consoleSound && s.part.countersSound) = true →
    step s = .next t → (t.part.referenceSound && t.part.consoleSound && t.part.countersSound) = true

/-! ## Packets, replies and notices -/

/-- Packets that are not dispatched (R20, R21): a bad one is answered BAD_FORMAT with PACKET_ERROR and a count up to
255; an unknown kind UNKNOWN, a wrong length BAD_VALUE with operand 0. Nothing else changes. -/
def Obligations.RefusedPackets : Prop :=
  ∀ (s : State) (off kind : Nat),
    exec (.packetBadFormat off kind) s
      = .next { s with part := { s.part with pku := { s.part.pku with
          notices := s.part.pku.notices ||| 8#18
          errors := min 255 (s.part.pku.errors + 1)
          building := s.part.pku.building ++ [replyOf kind off { result := .badFormat }] } } }
    ∧ exec (.packetUnknownKind off kind) s
      = .next { s with part := { s.part with pku := { s.part.pku with
          building := s.part.pku.building ++ [replyOf kind off { result := .unknown }] } } }
    ∧ exec (.packetWrongLength off kind) s
      = .next { s with part := { s.part with pku := { s.part.pku with
          building := s.part.pku.building ++ [replyOf kind off { result := .badValue, operand := 0 }] } } }

/-- The records of a field (R26, R29, R38): the status block is 83 bytes, each byte the item of its number in Tables 2-6
and 2-7 as its owner holds it at that instant, with the codes of Table 2-10 and the label of R57 and R58 in the counting
in use; numbers of more bytes stand most significant byte first, the notice set and the mask in the bit order of Table
2-3, the chase error saturated and 0 while OFF (R87). The field identity of R4 and the lock counters and speed demands
of R105, to which the tables give no byte, are reported beside the bytes (log entries 40 and 43, DESIGN CHOICE). The
block is framed with record type 0xF0 and changes nothing but its line; the reply records stand on eight lines in list
order, each framed with type 0xF1, a line past the list carries none, and the list is discarded. On the lines of PGM
outside the active ones the words stand from sample 0, the luma after them is 64 and the chroma 512; a line without a
record, an extension line, and every such line of PVW are blanking (R16, R162); that blanking, and a line of PGM's
vertical interval outside the nine, is luma 64 and chroma 512 is the model's choice (log entry 41). On the active lines
both outputs carry BLACK in a field that began outside LOCKED and FREEWHEEL (R16). -/
def Obligations.RecordsWritten : Prop :=
  ∀ s : State,
    let p := s.part
    let byte (k : Nat) (x : Int) : Prop := p.statusBytes[k]? = some (BitVec.ofInt 8 x)
    let flag (b : Bool) : Int := if b then 1 else 0
    let four (f : Fin 4 → Bool) : Int := flag (f 0) + 2 * flag (f 1) + 4 * flag (f 2) + 8 * flag (f 3)
    let siu (i : Input) : Int := match (p.siu i).state with
      | .noSignal => 0 | .formatError => 1 | .outOfWindow => 2 | .inWindow => 3
    let source (x : Source) : Int := match x with
      | .a => 0 | .b => 1 | .c => 2 | .black => 3 | .bars => 4
    let order : List Notice := [.refLost, .refJump, .standardChange, .packetError, .inputWindow, .inputFormat, .deckTimeout,
      .deckAbsent, .deckLocal, .deckRefused, .markTaken, .markOverflow, .markRefused, .holdWaiting, .eventDone,
      .eventFailed, .listEnd, .guardTrip]
    p.statusBytes.length = 83
    ∧ byte 0 (p.rtu.fieldCount / 65536) ∧ byte 1 (p.rtu.fieldCount / 256) ∧ byte 2 p.rtu.fieldCount
    ∧ byte 3 (match p.rtu.std with | .sys30 => 0 | .sys25 => 1)
    ∧ byte 4 (match p.rtu.lock with | .noRef => 0 | .acquire => 1 | .locked => 2 | .freewheel => 3)
    ∧ byte 5 (flag p.tcu.dfMode)
    ∧ byte 6 (p.pku.notices.toNat / 65536) ∧ byte 7 (p.pku.notices.toNat / 256) ∧ byte 8 p.pku.notices.toNat
    ∧ (∀ (k : Nat) (n : Notice), order[k]? = some n → p.noticeSet n = p.pku.notices.getLsbD k)
    ∧ byte 9 (p.pku.mask.toNat / 65536) ∧ byte 10 (p.pku.mask.toNat / 256) ∧ byte 11 p.pku.mask.toNat
    ∧ byte 12 (match p.pku.cause with | .powerOn => 0 | .resetLine => 1 | .command => 2)
    ∧ byte 13 p.pku.errors
    ∧ byte 14 (match p.eds.phase with
        | .idle => 0 | .cue => 1 | .hold => 2 | .roll => 3 | .record => 4 | .postroll => 5)
    ∧ byte 15 (match p.eds.active with | some n => (n.val : Int) | none => 255)
    ∧ byte 16 p.eds.cursor.val ∧ byte 17 (flag p.eds.holdWaiting) ∧ byte 18 p.tcu.marks.length
    ∧ (∀ d : DeckNo,
        let k := p.deck d
        let item (m : Nat) (x : Int) : Prop := byte (19 + 13 * d.val + m) x
        let l := positionLabel p.counting k.position.position
        item 0 (match k.role with | .noRole => 0 | .player => 1 | .recorder => 2)
        ∧ item 1 (match k.line with | .unknown => 0 | .online => 1 | .inLocal => 2 | .absent => 3)
        ∧ item 2 (match k.transport with
            | .stopped => 0 | .still => 1 | .play => 2 | .variableSpeed => 3 | .fastFwd => 4 | .rewind => 5
            | .cueing => 6 | .record => 7 | .noTape => 8)
        ∧ item 3 l.hh ∧ item 4 l.mm ∧ item 5 l.ss ∧ item 6 l.ff
        ∧ item 7 ((match l.field with | .one => 0 | .two => 1) + 8 * flag p.counting.drop)
        ∧ item 8 (flag k.position.valid)
        ∧ item 9 (match k.chase.state with | .off => 0 | .pullIn => 1 | .locked => 2 | .lost => 3)
        ∧ item 10 (if k.chase.state = .off then 0 else max (-128) (min 127 k.chase.error))
        ∧ item 11 (flag k.wantRecord)
        ∧ item 12 (match k.sentRecord with | some b => flag b | none => 2))
    ∧ byte 71 (match p.mep.owner with | .host => 0 | .auto => 1 | .eds => 2)
    ∧ byte 72 (match p.mep.active.params.transition with | .cut => 0 | .mix => 1 | .wipe => 2)
    ∧ byte 73 (p.mep.active.params.level / 256) ∧ byte 74 p.mep.active.params.level
    ∧ byte 75 (source p.mep.active.params.bg1) ∧ byte 76 (source p.mep.active.params.bg2)
    ∧ byte 77 (flag p.mep.active.params.keyOn)
    ∧ byte 78 (siu .a) ∧ byte 79 (siu .b) ∧ byte 80 (siu .c)
    ∧ byte 81 (four fun g => (p.gtu.gpis.get g).accepted) ∧ byte 82 (four fun t => p.tallyLit t)
    ∧ (∃ beside : StatusBeside,
        exec .statusBlockWrite s
          = .next { s with part := { s.part with pku := { s.part.pku with
              statusWords := packetWords 0xF0 s.part.statusBytes, statusBeside := some beside } } }
        ∧ beside.identity = p.rtu.fieldId
        ∧ ∀ d : DeckNo, beside.lockCounts.get d = (p.deck d).chase.lockCount
            ∧ beside.speeds.get d = (p.deck d).chase.speed)
    ∧ (∃ lines : List (List Word10),
        exec .replyRecordWrite s
          = .next { s with part := { s.part with pku := { s.part.pku with replyWords := lines, toWrite := [] } } }
        ∧ lines.length = 8
        ∧ ∀ k : Nat, k < 8 → lines[k]? =
            match s.part.pku.toWrite[k]? with
            | some r => some (packetWords 0xF1 r.bytes)
            | none => some [])
    ∧ ∀ (f : OutputField) (n x : Nat),
        let carried (words : List Word10) : Nat := match words[x]? with
          | some w => w.toNat
          | none => 64
        let S := p.pku.inUse.status
        (f.isActive n = false →
          p.pgmLine f n .cb x = 512 ∧ p.pgmLine f n .cr x = 512
          ∧ p.pvwLine f n .y x = 64 ∧ p.pvwLine f n .cb x = 512 ∧ p.pvwLine f n .cr x = 512
          ∧ (f.hasLine n = false → p.pgmLine f n .y x = 64)
          ∧ (f.hasLine n = true → n < S → p.pgmLine f n .y x = 64)
          ∧ (f.hasLine n = true → n = S → p.pgmLine f n .y x = carried p.pku.statusWords)
          ∧ (f.hasLine n = true → S < n → p.pgmLine f n .y x = carried ((p.pku.replyWords[n - S - 1]?).getD [])))
        ∧ (f.isActive n = true → p.mep.active.onAir = false →
          p.pgmLine f n .y x = 64 ∧ p.pgmLine f n .cb x = 512 ∧ p.pgmLine f n .cr x = 512
          ∧ p.pvwLine f n .y x = 64 ∧ p.pvwLine f n .cb x = 512 ∧ p.pvwLine f n .cr x = 512)

/-- CTRL_LINES stores its four values clamped into Table 2-1 and lists the operands it clamped (R24, R28). -/
def Obligations.LineSettingsStored : Prop :=
  ∀ (s : State) (off w30 s30 w25 s25 : Nat),
    let bad : List Nat := (if 10 ≤ w30 ∧ w30 ≤ 17 then [] else [1]) ++ (if 10 ≤ s30 ∧ s30 ≤ 11 then [] else [2])
      ++ (if 7 ≤ w25 ∧ w25 ≤ 15 then [] else [3]) ++ (if 6 ≤ s25 ∧ s25 ≤ 12 then [] else [4])
    let answer : Answer := if bad = [] then { result := .accepted } else { result := .clamped, clamped := bad }
    exec (.ctrlLines off w30 s30 w25 s25) s
      = .next { s with part := { s.part with pku := { s.part.pku with
          lines30 := { window := max 10 (min 17 w30), status := max 10 (min 11 s30) }
          lines25 := { window := max 7 (min 15 w25), status := max 6 (min 12 s25) }
          building := s.part.pku.building ++ [replyOf 0x10 off answer] } } }

/-- CLEAR_NOTICES clears exactly the notices named, and the error count with PACKET_ERROR; NOTICE_MASK replaces the
report mask; both refuse a mask with a bit above bit 17 (R31, R32). The alert condition is true while at least one
notice is both set and enabled, and false otherwise (R32); a tally output of role ALERT is lit exactly then
(R176). -/
def Obligations.NoticesClearedAndMasked : Prop :=
  (∀ (s : State) (off mask : Nat),
     (mask < 2 ^ 18 →
       ∃ p : Part, exec (.clearNotices off mask) s = .next { s with part := p }
         ∧ (∀ n : Notice, p.noticeSet n = (s.part.noticeSet n && !mask.testBit n.bit))
         ∧ p = { s.part with pku := { s.part.pku with
             notices := p.pku.notices
             errors := if mask.testBit 3 then 0 else s.part.pku.errors
             building := s.part.pku.building ++ [replyOf 0x11 off { result := .accepted }] } })
     ∧ (mask < 2 ^ 18 → exec (.noticeMask off mask) s
         = .next { s with part := { s.part with pku := { s.part.pku with
             mask := BitVec.ofNat 18 mask
             building := s.part.pku.building ++ [replyOf 0x12 off { result := .accepted }] } } })
     ∧ (2 ^ 18 ≤ mask →
         exec (.clearNotices off mask) s = .next { s with part := s.part.reply 0x11 off (.badValue 1) }
         ∧ exec (.noticeMask off mask) s = .next { s with part := s.part.reply 0x12 off (.badValue 1) }))
  ∧ ∀ p : Part,
      (p.alert = true ↔ ∃ n : Notice, p.noticeSet n = true ∧ p.pku.mask.getLsbD n.bit = true)
      ∧ ∀ t : Fin 4, p.gtu.tallies.get t = .alert → p.tallyLit t = p.alert

/-- Every structural operand of every host command (R23, R24, R25, R120): the operands are judged in order before any
state is looked at, and the first one out of its range is answered BAD_VALUE with its number, nothing else being
changed. An operand is named here with its range; a label is in range where R25 and R39 read it under the counting in
use. Scope of RESET_PART and the masks of eighteen bits have their own statements. -/
def Obligations.StructuralValuesRefused : Prop :=
  ∀ (s : State) (off a b c d e f g : Nat) (v : Int) (at_ : LabelChoice) (cue : RawLabel) (ops : EventOperands)
    (points : List Nat),
    let label (x : RawLabel) : Bool := (readLabel s.part.counting x).isSome
    let below (hi x : Nat) : Bool := decide (x < hi)
    let judged (i : Instr) (kind : Nat) (checks : List (Nat × Bool)) : Prop :=
      ∀ x, checks.find? (fun y => !y.2) = some x → exec i s = .next { s with part := s.part.reply kind off (.badValue x.1) }
    let k := ops.key
    let keyChecks : List (Nat × Bool) := (16, below 2 k.presence) :: (if k.presence = 1 then
      [(16, below 4 k.fillDeck), (17, label k.fillIn), (18, below 3 k.keyInput), (21, below 2 k.invert)
       , (22, below 2592000 k.onOffset), (23, below 2592000 k.offOffset)] else [])
    let sourceChecks : List (Nat × Bool) :=
      [(24, decide (1 ≤ ops.sourceCount ∧ ops.sourceCount ≤ 2)), (24, below 4 ops.entry1.deck), (25, label ops.entry1.play)]
      ++ (if ops.sourceCount = 2 then [(26, below 4 ops.entry2.deck), (27, label ops.entry2.play)] else [])
    judged (.inputConfig off a b c d e) 0x20 [(1, below 3 a)]
    ∧ judged (.substPolicy off a b) 0x21 [(1, below 3 a), (2, below 2 b)]
    ∧ judged (.tcConfig off a b c d e) 0x30 [(1, below 2 a), (2, below 2 b), (3, below 2 c), (4, below 2 d), (5, below 2 e)]
    ∧ judged (.markPush off a at_) 0x31 [(1, below 4 a), (2, below 2 at_.alt), (2, at_.alt != 0 || label at_.label)]
    ∧ judged (.deckAssign off a b c) 0x40 [(1, below 4 a), (2, below 3 b), (3, below 4 c)]
    ∧ judged (.deckParams off a b c d e f g) 0x41 [(1, below 4 a)]
    ∧ judged (.deckRead off a) 0x42 [(1, below 4 a)]
    ∧ judged (.deckDirect off a b v cue) 0x43 [(1, below 4 a), (2, below 9 b), (4, label cue)]
    ∧ judged (.eventLoad off ops) 0x50
        ([(1, below 64 ops.slot), (2, below 2 ops.kind), (3, below 2 ops.recordIn.alt)
         , (3, ops.recordIn.alt != 0 || label ops.recordIn.label), (4, below 2 ops.length.alt), (5, below 3 ops.transition)
         , (6, below 2591999 ops.start), (10, below 2 ops.reverse), (14, below 2 ops.hold), (15, below 16 ops.tracks)]
         ++ keyChecks ++ sourceChecks)
    ∧ judged (.eventClear off a) 0x51 [(1, below 64 a)]
    ∧ judged (.eventRead off a) 0x52 [(1, below 64 a)]
    ∧ judged (.eventArm off a) 0x53 [(1, below 64 a)]
    ∧ judged (.listRun off a) 0x58 [(1, below 64 a)]
    ∧ judged (.xptSet off a b c) 0x60 [(1, below 5 a), (2, below 5 b), (3, below 5 c)]
    ∧ judged (.keyParams off a b c d e f) 0x61 [(1, below 2 a), (2, below 5 b), (3, below 3 c), (6, below 2 f)]
    ∧ judged (.autoTake off a b c d e f) 0x62 [(1, below 3 a), (3, below 16 c), (4, below 4 d), (6, below 2 f)]
    ∧ judged (.patternLoad off a b c d e) 0x63 [(1, below 16 a), (2, below 5 b), (5, below 2 e)]
    ∧ (points.length = 17 → judged (.curveLoad off a points) 0x64 [(1, decide (1 ≤ a ∧ a < 4))])
    ∧ judged (.gpiConfig off a b c d e) 0x70 [(1, below 4 a), (2, below 4 b), (3, below 2 c), (5, below 4 e)]
    ∧ judged (.tallyConfig off a b) 0x71 [(1, below 4 a), (2, below 7 b)]

/-- RESET_PART of scope ENGINE (R151): the engine stands in IDLE with no slot active, no slot is ARMED, an active
event ends ABORTED with ENGINE_RESET, and no notice is set. An abort's moves are made (R147): STILL is wanted of the
event's decks, record OFF of the recorder, the chases stop (R107), and the preload goes back to the host (R159). The
rest stays: the cursor, the guard limit, the other slots' records and run results, the deck table, the ports, the
mixer's tables, the marks, the inputs, the reference and the console. -/
def Obligations.EngineReset : Prop :=
  ∀ (s : State) (off : Nat),
    let e := s.part.eds
    let ends : Prop := e.active ≠ none
    let chases (d : DeckNo) : Prop := ends ∧ (s.part.deck d).chase.state ≠ .off
    let m := s.part.mep
    ∃ p : Part, exec (.resetPartEngine off) s = .next { s with part := p.reply 0x13 off .accepted }
      ∧ p.eds = { e with
          slots := p.eds.slots, phase := .idle, active := none, stopRequest := false, latch := false
          holdWaiting := false, guardCount := 0, guardRunning := false, cues := Table.replicate 4 none }
      ∧ (∀ n : SlotNo, p.slot n =
          if e.active = some n then { s.part.slot n with
            state := .aborted, run := { (s.part.slot n).run with reason := .engineReset } }
          else if (s.part.slot n).state = .armed then { s.part.slot n with state := .loaded, arm := none }
          else s.part.slot n)
      ∧ (∀ d : DeckNo,
          p.deck d = { s.part.deck d with
            want := if s.part.inActiveEvent d then .still else (s.part.deck d).want
            wantRecord := if ends ∧ s.part.recorder = some d then false else (s.part.deck d).wantRecord
            wantSpeed := if chases d then 256 else (s.part.deck d).wantSpeed
            chase := if chases d then { state := .off, error := 0, lockCount := 0, speed := 256 } else (s.part.deck d).chase }
          ∧ p.port d = { s.part.port d with
              directHold := if s.part.inActiveEvent d then false else (s.part.port d).directHold }
          ∧ p.chu.own.get d = { s.part.chu.own.get d with
              pending := if chases d then false else (s.part.chu.own.get d).pending })
      ∧ p.chu = { s.part.chu with syncWatch := if ends then false else s.part.chu.syncWatch, own := p.chu.own }
      ∧ p.mep = (if ends ∧ m.owner = .eds then { m with preload := { m.held with level := 0 }, owner := .host } else m)
      ∧ p.pku = s.part.pku ∧ p.tcu = s.part.tcu ∧ p.rtu = s.part.rtu ∧ p.sius = s.part.sius ∧ p.gtu = s.part.gtu

/-- The packet of every well-formed host command, written by Table 2-8 and R37 and framed by Table 2-4, is read back on
its window line as that command, whatever stands on the line after it (R19 to R22). -/
def Obligations.PacketReadsBack : Prop :=
  ∀ (i : Instr) (off kind : Nat) (payload : List Byte) (after : List Word10), i.wellFormed = true →
    hostPacket i = some (off, kind, payload) → readLine off (packetLine kind payload ++ after) = some i

/-! ## Source inputs -/

/-- INPUT_CONFIG clamps four VITC lines into their ranges and SUBST_POLICY writes a policy, each for its one input
and nothing else; the policy only while the host owns the preload (R24, R52, R53). -/
def Obligations.InputSettings : Prop :=
  ∀ (s : State) (off policy a b c d : Nat) (i : Input) (pol : Policy), policyOf policy = some pol →
    let lines : VitcLines :=
      { first30 := clampTo 10 19 a, second30 := clampTo 10 19 b, first25 := clampTo 6 22 c, second25 := clampTo 6 22 d }
    let answer : Answer := Answer.taken [⟨2, 10, 19, a⟩, ⟨3, 10, 19, b⟩, ⟨4, 6, 22, c⟩, ⟨5, 6, 22, d⟩]
    exec (.inputConfig off (inputCode i) a b c d) s
      = .next { s with part := (s.part.modSiu i (fun u => { u with vitc := lines })).reply 0x20 off answer }
    ∧ (s.part.mep.owner = .host → exec (.substPolicy off (inputCode i) policy) s
        = .next { s with part := (s.part.modSiu i (fun u => { u with policy := pol })).reply 0x21 off .accepted })
    ∧ (s.part.mep.owner ≠ .host → exec (.substPolicy off (inputCode i) policy) s
        = .next { s with part := s.part.reply 0x21 off .busy })

/-- At a field timing reference of an input the SIU takes the nearest field start of that identity, of two equally near
the later one: the timing offset is the distance from it and the matched field its count (R43). The field starts it is
measured against are those before, at and after the instant at which it arrives (log entries 8, DESIGN CHOICE, and 22,
DEDUCED), the start after the next opening the present count plus 2 (log entry 58, DEDUCED), and the fields that are to
be judged afterwards are those of log entry 18 (DEDUCED). The settings of the VITC lines are taken (R52), and a field
that ended before its later VITC line leaves no reading (R50). -/
def Obligations.InputMatchesNearestFieldStart : Prop :=
  ∀ (s : State) (i : Input) (id : FieldId) (time : Nat),
    let r : Rtu := { s.part.rtu with timing := { s.part.rtu.timing with elapsed := time } }
    let arrived : Part := { s.part with rtu := r }
    ∃ n ∈ r.nearStarts, n.id = id
      ∧ (∀ m ∈ r.nearStarts, m.id = id →
          n.time.natAbs ≤ m.time.natAbs ∧ (m.time.natAbs = n.time.natAbs → m.time ≤ n.time))
      ∧ exec (.inputFieldReference i id time) s
        = .next { s with part := arrived.modSiu i (fun u => { u with
            offset := -n.time, matchedField := some n.count
            vitcInUse := if r.std = .sys30 then (u.vitc.first30, u.vitc.second30) else (u.vitc.first25, u.vitc.second25)
            closedJudging := u.judging, judging := true
            reading := if u.formed then u.reading else none, formed := false
            vitcFirst := .notReached, vitcSecond := .notReached, fieldId := id, line := 0, quiet := 0 }) }

/-- An input field judged well-formed (R44): the first after a break raises the clean count to 1; the second, and every
one from a framed state, decides IN_WINDOW or OUT_OF_WINDOW by the offset of one line. At the second the clean count is
2, and a framed state keeps it, which at the 0 that R45 left is the model's choice (log entry 54). Every entry into
OUT_OF_WINDOW sets INPUT_WINDOW, and nothing else here does. At the entry into IN_WINDOW the reading held goes to the
TCU for the deck that holds the input (R51). The other inputs and the RTU are untouched. -/
def Obligations.InputJudgedGood : Prop :=
  ∀ (s : State) (i : Input) (obs : FieldObs), (s.part.siu i).closedJudging = true →
    fieldWellFormed obs s.part.rtu.std = true →
    let u := s.part.siu i
    let framed : Bool := u.state == .inWindow || u.state == .outOfWindow
    ∃ p : Part, exec (.inputFieldWellFormed i obs) s = .next { s with part := p }
      ∧ ((framed || u.clean != 0) = true → (p.siu i).state =
          if u.offset.natAbs ≤ Config.lineLen s.part.rtu.std then SiuState.inWindow else .outOfWindow)
      ∧ (framed = true → (p.siu i).clean = u.clean)
      ∧ (framed = false → u.clean ≠ 0 → (p.siu i).clean = 2)
      ∧ ((framed || u.clean != 0) = false → (p.siu i).state = u.state ∧ (p.siu i).clean = 1)
      ∧ (p.noticeSet .inputWindow = true ↔ s.part.noticeSet .inputWindow = true
          ∨ (u.state ≠ .outOfWindow ∧ (p.siu i).state = .outOfWindow))
      ∧ (∀ x, u.reading = some x → u.state ≠ .inWindow → (p.siu i).state = .inWindow →
          ∀ d, s.part.holder i = some d → (p.deck d).position = ((s.part.vitcMeasurement d x).deck d).position)
      ∧ (∀ j : Input, j ≠ i → p.siu j = s.part.siu j) ∧ p.rtu = s.part.rtu

/-- An input field judged bad, or two lines of silence: FORMAT_ERROR with clean count 0, INPUT_FORMAT set exactly at
the entry; a longer silence: NO_SIGNAL, without a notice (R41, R42, R44). Which field is judged is the model's reading
(log entry 18, DEDUCED): the one that the last reference closed, where that is still to be judged, and then the field
which that reference opened stays to be judged; otherwise the one in progress, whose reading is then not formed any
more (R50). Silence judges the field in progress. Where no field is to be judged nothing happens (R40, R45). -/
def Obligations.InputJudgedBad : Prop :=
  ∀ (s : State) (i : Input) (cause : BadCause),
    let u := s.part.siu i
    let bad : Siu := { u with state := .formatError, clean := 0 }
    let open_ : Siu := { bad with
      judging := false, formed := true, reading := if u.formed then u.reading else none }
    let judged (x : Siu) : State := { s with part := { s.part.modSiu i (fun _ => x) with
      pku := if u.state = .formatError then s.part.pku
             else { s.part.pku with notices := s.part.pku.notices ||| 32#18 } } }
    (u.closedJudging = true → exec (.inputFieldBad i cause) s = .next (judged { bad with closedJudging := false }))
    ∧ (u.closedJudging = false → u.judging = true → exec (.inputFieldBad i cause) s = .next (judged open_))
    ∧ (u.closedJudging = false → u.judging = false → exec (.inputFieldBad i cause) s = .next s)
    ∧ (u.judging = true → exec (.inputSilenceBad i) s = .next (judged { open_ with closedJudging := false }))
    ∧ (u.judging = false → exec (.inputSilenceBad i) s = .next s)
    ∧ exec (.inputNoSignal i) s = .next { s with part := s.part.modSiu i (fun x => { x with
        state := .noSignal, clean := 0, matchedField := none, judging := false, closedJudging := false }) }

/-- A line of the output field that an input cannot supply is a store slip: it is black, and the look-up stands for the
whole line; an IN_WINDOW input becomes OUT_OF_WINDOW with INPUT_WINDOW (R47). The look-up is the one that was made at
the beginning of the line; where none was, the store is looked at now (log entry 47, DESIGN CHOICE). Where the line was
found nothing happens. An arriving VITC line keeps its 90 cells, 1 where the luma sample 8·c + 4 lies above 502; one cut
short reads 0 past its end (log entry 52, DESIGN CHOICE). The line after the later VITC line brings the reading (log
entry 53, DESIGN CHOICE). A line passes with its nine pairs 1 then 0, its groups summing to 0, its digits 0 to 9 and its
label in range; it reads as Table 3-1 places the digits (R49). The reading is the first line's where that passes,
whatever the second reads, else the second's, else none; two settings of one line make that line both (R50). Outside
IN_WINDOW it goes no further than the SIU; in IN_WINDOW it goes to the TCU as a measurement for the deck that holds the
input (R51). The TCU discards it while the counting is unsettled or where the label is out of range (R64); otherwise the
VITC age becomes 0, and the record is replaced where the deck prefers VITC or has had no deck reply for more than two
field starts: the position of the label is carried on over the fields elapsed by the deck's motion (R65, R67, R68). -/
def Obligations.StoreSlipAndReading : Prop :=
  ∀ (s : State) (i : Input) (line : Nat) (first second : VitcLine) (v : VideoLine),
    let u := s.part.siu i
    let group (w : BitVec 90) (g : Nat) : Nat := w.toNat / 2 ^ (10 * (g - 1) + 2) % 256
    let named (w : BitVec 90) : Label :=
      { hh := group w 8 % 4 * 10 + group w 7 % 16, mm := group w 6 % 8 * 10 + group w 5 % 16
        ss := group w 4 % 8 * 10 + group w 3 % 16, ff := group w 2 % 4 * 10 + group w 1 % 16
        field := if (group w 4).testBit 3 then .two else .one }
    let passes (w : BitVec 90) : Bool :=
      (List.range 9).all (fun g => w.getLsbD (10 * g) && !w.getLsbD (10 * g + 1))
      && decide ((group w 1 + group w 2 + group w 3 + group w 4 + group w 5 + group w 6 + group w 7 + group w 8 + group w 9)
        % 256 = 0)
      && decide (group w 1 % 16 ≤ 9 ∧ group w 3 % 16 ≤ 9 ∧ group w 5 % 16 ≤ 9 ∧ group w 7 % 16 ≤ 9)
      && decide ((named w).hh ≤ 23 ∧ (named w).mm ≤ 59 ∧ (named w).ss ≤ 59
        ∧ (named w).ff < match s.part.rtu.std with | .sys30 => 30 | .sys25 => 25)
    let reads (x : VitcLine) : Option (Label × Bool) := match x with
      | .cells w => if passes w then some (named w, (group w 2).testBit 2) else none
      | .notReached => none
    let read : Option (Label × Bool) := match reads first, reads (if u.vitcInUse.1 = u.vitcInUse.2 then first else second) with
      | some x, none => some x
      | none, some y => some y
      | some x, some _ => some x
      | none, none => none
    let t := s.receiveInputLine i v
    let kept (x old : VitcLine) (n : Nat) : Prop :=
      if u.line + 1 = n then ∃ w : BitVec 90, x = .cells w ∧ ∀ c, c < 90 → (w.getLsbD c = true ↔ 502 < v.luma.getD (8 * c + 4) 0)
      else x = old
    let ended : Bool := decide (u.line = max u.vitcInUse.1 u.vitcInUse.2) && !u.formed
    let formed : Siu := { u with formed := true, reading :=
      match read, u.matchedField with
      | some (l, d), some f => some { label := l, drop := d, field := f }
      | _, _ => none }
    let found (f : OutputField) : Option StoredLine :=
      match u.lookedUp with
      | some l => if l.field = f.count ∧ l.line = line then l.found else u.storedFor f.count line
      | none => u.storedFor f.count line
    (kept (t.part.siu i).vitcFirst u.vitcFirst u.vitcInUse.1 ∧ kept (t.part.siu i).vitcSecond u.vitcSecond u.vitcInUse.2
      ∧ t.pending = s.pending ++ (if ended then [.vitcReading i u.vitcFirst u.vitcSecond] else []))
    ∧ (∀ f, s.part.rtu.outputField = some f → found f = none →
      let black : LookUp := { field := f.count, line := line, found := none }
      (u.state = .inWindow → exec (.storeSlip i line) s
        = .next { s with part := { s.part.modSiu i (fun x => { x with state := .outOfWindow, lookedUp := some black }) with
            pku := { s.part.pku with notices := s.part.pku.notices ||| 16#18 } } })
      ∧ (u.state ≠ .inWindow → exec (.storeSlip i line) s
        = .next { s with part := s.part.modSiu i (fun x => { x with lookedUp := some black }) }))
    ∧ ((∀ f, s.part.rtu.outputField = some f → found f ≠ none) → exec (.storeSlip i line) s = .next s)
    ∧ (u.state ≠ .inWindow → exec (.vitcReading i first second) s
        = .next { s with part := s.part.modSiu i (fun _ => formed) })
    ∧ ∃ p : Part, exec (.vitcReading i first second) s = .next { s with part := p } ∧ p.siu i = formed ∧ p.rtu = s.part.rtu
      ∧ ∀ x, formed.reading = some x → u.state = .inWindow →
          let c := s.part.counting
          let taken : Bool := s.part.tcu.settled && labelInRange c x.label
          (s.part.holder i = none → p = s.part.modSiu i (fun _ => formed))
          ∧ ∀ d, s.part.holder i = some d →
            let k := (s.part.deck d).position
            let gone : Int := k.motion * (((s.part.rtu.fieldCount : Int) - x.field) % 2 ^ 24)
            (∀ e : DeckNo, e ≠ d → (p.deck e).position = (s.part.deck e).position)
            ∧ (taken = false → p = s.part.modSiu i (fun _ => formed))
            ∧ (taken = true → k.preference = .vitcFirst ∨ 2 < k.deckAge → (p.deck d).position = { k with
                position := ((labelPosition c x.label + gone / 256) % c.day).toNat, acc := (gone % 256).toNat
                valid := true, source := .vitc, age := 0, vitcAge := 0 })
            ∧ (taken = true → k.preference = .deckFirst → k.deckAge ≤ 2 → (p.deck d).position = { k with vitcAge := 0 })

/-! ## Timecode and tape position -/

/-- TC_CONFIG (R70, R150): while a slot is ACTIVE it is refused with BUSY; with none the preferences are stored. With
DF_MODE as it was nothing else changes. A change invalidates every position record, which then holds 0 with source
ESTIMATE, ages of 255 and an empty accumulator, and keeps its motion, timecode source and preference; it empties the mark
stack, disarms every ARMED slot and makes the arm results and recorded fields of every slot absent (R130, R150); a
last-sent CUE_TO becomes UNKNOWN and a pending direct CUE_TO is dropped, all else of the deck records being kept (R88). -/
def Obligations.TimecodeConfigured : Prop :=
  ∀ (s : State) (off : Nat) (df : Bool) (pref : DeckNo → Preference),
    let sent := Instr.tcConfig off (switchCode df) (pref 0).code (pref 1).code (pref 2).code (pref 3).code
    (s.part.eds.active ≠ none → exec sent s = .next { s with part := s.part.reply 0x30 off .busy })
    ∧ (s.part.eds.active = none → ∃ p : Part, exec sent s = .next { s with part := p.reply 0x30 off .accepted }
      ∧ p.tcu.dfMode = df ∧ (∀ d : DeckNo, (p.deck d).position.preference = pref d)
      ∧ (df = s.part.tcu.dfMode → p = { s.part with decks := p.decks }
          ∧ ∀ d : DeckNo, p.deck d = { s.part.deck d with
              position := { (s.part.deck d).position with preference := pref d } })
      ∧ (df ≠ s.part.tcu.dfMode → p.tcu = { s.part.tcu with dfMode := df, marks := [] }
          ∧ (∀ d : DeckNo, p.deck d = { s.part.deck d with
              position := { (s.part.deck d).position with
                position := 0, valid := false, source := .estimate, age := 255, acc := 0, vitcAge := 255, deckAge := 255
                preference := pref d }
              sent := match (s.part.deck d).sent with | .cueTo _ => .unknown | x => x
              direct := (s.part.deck d).direct.filter (fun x => x.command != .cueTo) })
          ∧ (∀ n : SlotNo, p.slot n = { s.part.slot n with
              state := if (s.part.slot n).state = .armed then .loaded else (s.part.slot n).state
              arm := none, run := { (s.part.slot n).run with recordOn := none, recordOff := none } })
          ∧ p = { s.part with tcu := p.tcu, decks := p.decks, eds := { s.part.eds with slots := p.eds.slots } }))

/-- A valid record older than 30 field starts becomes invalid with source ESTIMATE, its position held (R62). That a
POSITION_STALE of a record that is not stale changes nothing is the model's choice (log entry 5, DESIGN CHOICE): the
volume has the judgement made at the field start itself. -/
def Obligations.StaleRecordInvalidated : Prop :=
  ∀ (s : State) (d : DeckNo),
    let r := (s.part.deck d).position
    (r.valid = true → 30 < r.age →
      ∃ p : Part, exec (.positionStale d) s = .next { s with part := p }
        ∧ (p.deck d).position = { r with valid := false, source := .estimate }
        ∧ p.rtu = s.part.rtu ∧ p.tcu = s.part.tcu ∧ p.sius = s.part.sius ∧ p.gtu = s.part.gtu)
    ∧ (r.valid = false ∨ r.age ≤ 30 → exec (.positionStale d) s = .next s)

/-- A host mark goes on top of the stack with MARK_TAKEN; the stack keeps the eight newest, and MARK_OVERFLOW tells
of one lost; NOW takes the deck's present position and is refused with STATE where the record is invalid (R72, R73).
MARK_POP removes the top mark and returns its position as a label with its field, its deck and its origin, or answers
NO_MARK on an empty stack; MARK_CLEAR empties the stack
without notice (R75, R76). -/
def Obligations.MarkCommands : Prop :=
  (∀ (s : State) (off : Nat) (d : DeckNo) (raw : RawLabel) (l : Label) (normalised : Bool),
     readLabel s.part.counting raw = some (l, normalised) →
     let pushed (position : Nat) : Part := { s.part with
       tcu := { s.part.tcu with marks := ({ position := position, deck := d, origin := .host } :: s.part.tcu.marks).take 8 }
       pku := { s.part.pku with notices :=
         if s.part.tcu.marks.length < 8 then s.part.pku.notices ||| 1024#18 else s.part.pku.notices ||| 3072#18 } }
     let answer : Answer := { result := .accepted, normalised := normalised }
     exec (.markPush off d.val { alt := 0, label := raw }) s
       = .next { s with part := (pushed (labelPosition s.part.counting l)).reply 0x31 off answer }
     ∧ ((s.part.deck d).position.valid = true → exec (.markPush off d.val { alt := 1, label := raw }) s
         = .next { s with part := (pushed (s.part.deck d).position.position).reply 0x31 off .accepted })
     ∧ ((s.part.deck d).position.valid = false → exec (.markPush off d.val { alt := 1, label := raw }) s
         = .next { s with part := s.part.reply 0x31 off .state }))
  ∧ (∀ (s : State) (off : Nat),
     (∀ (m : Mark) (rest : List Mark), s.part.tcu.marks = m :: rest →
       let popped : Part := { s.part with tcu := { s.part.tcu with marks := rest } }
       let l := positionLabel s.part.counting m.position
       let items : List Nat := [l.hh, l.mm, l.ss, l.ff
         , (match l.field with | .one => 0 | .two => 1) + (if s.part.counting.drop then 8 else 0)
         , m.deck.val, match m.origin with | .g x => x.val | .host => 4]
       let answer : Answer := { result := .accepted, payload := items.map (BitVec.ofNat 8) }
       exec (.markPop off) s = .next { s with part := popped.reply 0x32 off answer })
     ∧ (s.part.tcu.marks = [] → exec (.markPop off) s = .next { s with part := s.part.reply 0x32 off .noMark })
     ∧ exec (.markClear off) s
       = .next { s with part := ({ s.part with tcu := { s.part.tcu with marks := [] } }).reply 0x33 off .accepted })

/-- Every frame count of the day has a label in range, never a skipped one, and that label's count is the count
again, in every counting (R55 to R57). -/
def Obligations.LabelOfCountCountsBack : Prop :=
  ∀ (std : Standard) (df : Bool) (n : Nat) (f : FieldId), n < (countingOf std df).dayFrames →
    labelInRange (countingOf std df) (countLabel (countingOf std df) n f) = true
    ∧ isSkipped (countingOf std df) (countLabel (countingOf std df) n f) = false
    ∧ labelCount (countingOf std df) (countLabel (countingOf std df) n f) = n
    ∧ (countLabel (countingOf std df) n f).field = f

/-- The field start step of a record (R61, R62): shuttle makes it invalid with accumulator 0; a valid record moves
by its motion in 1/256 field, whole fields into the position modulo the day, the rest held; an invalid one keeps its
position. The ages count up to 255. FIELD_START does this to each of the four records once, in whatever order its work
is asked for, and then makes a valid record older than 30 field starts invalid. That the motion is taken for an invalid
record and for a shuttling deck too is the model's reading (log entry 11, DEDUCED). -/
def Obligations.RecordAdvances : Prop :=
  (∀ (r : PosRec) (day : Nat) (t : Transport) (speed : Int), 0 < day →
    let v : Int := match t with
      | .play => 256
      | .record => 256
      | .variableSpeed => speed
      | _ => 0
    let a := r.advanced day t speed
    a.motion = v ∧ a.age = min 255 (r.age + 1) ∧ a.vitcAge = min 255 (r.vitcAge + 1)
    ∧ a.deckAge = min 255 (r.deckAge + 1)
    ∧ (t = .fastFwd ∨ t = .rewind → a.valid = false ∧ a.source = .estimate ∧ a.acc = 0 ∧ a.position = r.position)
    ∧ (t ≠ .fastFwd → t ≠ .rewind → r.valid = true →
        a.valid = true ∧ (a.position : Int) = (r.position + (r.acc + v).fdiv 256) % day
        ∧ (a.acc : Int) = (r.acc + v) % 256 ∧ a.position < day)
    ∧ (t ≠ .fastFwd → t ≠ .rewind → r.valid = false → a.valid = false ∧ a.position = r.position ∧ a.acc = r.acc))
  ∧ ∀ (s : State) (pins : BitVec 4) (order : List FieldWork), s.part.pku.fullPending = false →
    ∃ p : Part, exec (.fieldStart pins order) s = .next { s with part := p }
      ∧ ∀ d : DeckNo,
          let k := s.part.deck d
          let a := k.position.advanced s.part.counting.day k.transport k.speed
          (p.deck d).position = if a.valid = true ∧ 30 < a.age then { a with valid := false, source := .estimate } else a

/-- Every step keeps every position and mark within the day of the counting in use, and at most eight marks (R58,
R62, R65, R69 to R72). -/
def Obligations.PositionsStaySound : Prop :=
  ∀ s t : State, s.part.positionsSound = true → step s = .next t → t.part.positionsSound = true

/-! ## The deck table -/

/-- DECK_ASSIGN whose values are in their lists, judged in the order of R80: a video input that another deck holds is
refused with BAD_VALUE and operand 3; then a deck of the active event with BUSY; then a second RECORDER with STATE. An
accepted one (R81, R82): role and input are written; a deck that gains or loses RECORDER has its wanted record level OFF,
and one that gains it an unknown last-sent level; the ARMED slots that depend on the deck return to LOADED and are counted
in the reply. -/
def Obligations.DeckAssigned : Prop :=
  ∀ (s : State) (off role code : Nat) (d : DeckNo) (r : Role) (v : Option Input), roleOf role = some r →
    videoInputOf code = some v →
    let sent := Instr.deckAssign off d.val role code
    let elsewhere : Prop := v ≠ none ∧ ∃ e : DeckNo, e ≠ d ∧ (s.part.deck e).input = v
    let second : Prop := r = .recorder ∧ ∃ e : DeckNo, e ≠ d ∧ (s.part.deck e).role = .recorder
    let old := (s.part.deck d).role
    let touched : Bool := old == .recorder || r == .recorder
    let hit (x : Slot) : Bool := x.dependsOn d touched
    let answer : Answer :=
      { result := .accepted, payload := [byteOf (s.part.eds.slots.cells.filter hit).length] }
    (elsewhere → exec sent s = .next { s with part := s.part.reply 0x40 off (.badValue 3) })
    ∧ (¬ elsewhere → s.part.inActiveEvent d = true → exec sent s = .next { s with part := s.part.reply 0x40 off .busy })
    ∧ (¬ elsewhere → s.part.inActiveEvent d = false → second →
        exec sent s = .next { s with part := s.part.reply 0x40 off .state })
    ∧ (¬ elsewhere → s.part.inActiveEvent d = false → ¬ second →
      ∃ p : Part, exec sent s = .next { s with part := p.reply 0x40 off answer }
      ∧ p.deck d = { s.part.deck d with
          role := r, input := v
          wantRecord := if (r = .recorder) = (old = .recorder) then (s.part.deck d).wantRecord else false
          sentRecord := if r = .recorder ∧ old ≠ .recorder then none else (s.part.deck d).sentRecord
          direct := if r = .noRole ∧ old ≠ .noRole then none else (s.part.deck d).direct }
      ∧ p.port d = { s.part.port d with
          prescaler := if r ≠ .noRole ∧ old = .noRole then 1 else (s.part.port d).prescaler }
      ∧ (∀ e : DeckNo, e ≠ d → p.deck e = s.part.deck e ∧ p.port e = s.part.port e)
      ∧ (∀ n : SlotNo, p.slot n = if hit (s.part.slot n)
          then { s.part.slot n with state := .loaded, arm := none } else s.part.slot n)
      ∧ p = { s.part with decks := p.decks, ports := p.ports, eds := { s.part.eds with slots := p.eds.slots } })

/-- DECK_PARAMS clamps and stores its six parameters, and is refused with BUSY for a deck of the active event; DECK_READ
returns the whole record, item by item in the order and codes of Table 5-3 and the forms of R37, each label with the
drop-frame indication of the counting in use, and changes nothing (R24, R84 to R86). The label of a pending CUE_TO has
its normalised bit clear, and fields that a pending command does not use are zero (log entry 39, DESIGN CHOICE).
CHASE_PARAMS clamps and stores its six, and is refused with BUSY while any deck chases (R105, R116). -/
def Obligations.DeckAndChaseParams : Prop :=
  (∀ (s : State) (off : Nat) (d : DeckNo) (poll line lead record tolerance timeout : Nat),
     let stored : DeckParams :=
       { poll := clampTo 1 64 poll, slotLine := clampTo 20 250 line, playLead := clampTo 0 30 lead,
         recordLead := clampTo 0 15 record, tolerance := clampTo 0 10 tolerance, timeout := clampTo 5 255 timeout }
     let answer : Answer := Answer.taken [⟨2, 1, 64, poll⟩, ⟨3, 20, 250, line⟩, ⟨4, 0, 30, lead⟩, ⟨5, 0, 15, record⟩,
       ⟨6, 0, 10, tolerance⟩, ⟨7, 5, 255, timeout⟩]
     let c := s.part.counting
     let k := s.part.deck d
     let q := k.position
     let flag (b : Bool) : Int := if b then 1 else 0
     let two (x : Int) : List Int := [x / 256, x]
     let label (l : Label) : List Int := [l.hh, l.mm, l.ss, l.ff, (match l.field with | .one => 0 | .two => 1) + 8 * flag c.drop]
     let zero : List Int := [0, 0, 0, 0, 0]
     let offered : List DirectCommand :=
       [.play, .stop, .still, .fastFwd, .rewind, .variableSpeed, .cueTo, .eject, .recordOff]
     let items : List Int :=
       [(d.val : Int), (match k.role with | .noRole => 0 | .player => 1 | .recorder => 2)
        , (match k.input with | some .a => 0 | some .b => 1 | some .c => 2 | none => 3)
        , (match k.line with | .unknown => 0 | .online => 1 | .inLocal => 2 | .absent => 3)
        , (match k.transport with
          | .stopped => 0 | .still => 1 | .play => 2 | .variableSpeed => 3 | .fastFwd => 4 | .rewind => 5
          | .cueing => 6 | .record => 7 | .noTape => 8)
        , flag k.servo + 2 * flag k.inhibit + 4 * flag k.isLocal]
       ++ two k.speed ++ [(k.timeouts : Int)]
       ++ (match k.want with
          | .stop => 0 :: zero | .still => 1 :: zero | .play => 2 :: zero | .cueTo n => 3 :: label (countLabel c n .one))
       ++ [flag k.wantRecord] ++ two k.wantSpeed
       ++ (match k.direct with
          | some x => [1, (offered.findIdx (fun y => y == x.command) : Int)] ++ two x.speed
              ++ (match x.cue with | some l => label l | none => zero)
          | none => [0, 0, 0, 0] ++ zero)
       ++ (match k.sent with
          | .unknown => 0 :: zero | .stop => 1 :: zero | .still => 2 :: zero | .play => 3 :: zero | .fastFwd => 4 :: zero
          | .rewind => 5 :: zero | .eject => 6 :: zero | .cueTo n => 7 :: label (countLabel c n .one))
       ++ [match k.sentRecord with | some b => flag b | none => 2]
       ++ (match k.sentSpeed with | some x => 0 :: two x | none => [1, 0, 0])
       ++ [(k.params.poll : Int), k.params.slotLine, k.params.playLead, k.params.recordLead, k.params.tolerance, k.params.timeout]
       ++ label (positionLabel c q.position)
       ++ [flag q.valid, (match q.source with | .vitc => 0 | .deck => 1 | .estimate => 2), (q.age : Int), q.acc]
       ++ two q.motion
       ++ [(q.vitcAge : Int), q.deckAge, (match q.tcSource with | .ltc => 0 | .ctl => 1)
          , (match q.preference with | .vitcFirst => 0 | .deckFirst => 1)
          , (match k.chase.state with | .off => 0 | .pullIn => 1 | .locked => 2 | .lost => 3)]
       ++ (k.chase.error / 65536) :: two k.chase.error ++ [(k.chase.lockCount : Int)] ++ two k.chase.speed
       ++ (match k.lastReply with | some r => [1, (r.code : Int), flag r.refused, r.reason] | none => [0, 0, 0, 0])
     let read : Answer := { result := .accepted, payload := items.map (BitVec.ofInt 8) }
     (s.part.inActiveEvent d = false → exec (.deckParams off d.val poll line lead record tolerance timeout) s
       = .next { s with part := (s.part.modDeck d (fun k => { k with params := stored })).reply 0x41 off answer })
     ∧ (s.part.inActiveEvent d = true → exec (.deckParams off d.val poll line lead record tolerance timeout) s
       = .next { s with part := s.part.reply 0x41 off .busy })
     ∧ exec (.deckRead off d.val) s = .next { s with part := s.part.reply 0x42 off read })
  ∧ (∀ (s : State) (off gain slew window lockRun unlock sync : Nat),
     let given : ChaseParams :=
       { gain := clampTo 1 32 gain, slew := clampTo 0 128 slew, window := clampTo 2 240 window,
         lockRun := clampTo 1 16 lockRun, unlock := clampTo 2 8 unlock, sync := clampTo 2 16 sync }
     let stored : Part := { s.part with chu := { s.part.chu with params := given } }
     let answer : Answer := Answer.taken
       [⟨1, 1, 32, gain⟩, ⟨2, 0, 128, slew⟩, ⟨3, 2, 240, window⟩, ⟨4, 1, 16, lockRun⟩, ⟨5, 2, 8, unlock⟩, ⟨6, 2, 16, sync⟩]
     ((∀ d : DeckNo, (s.part.deck d).chase.state = .off) →
       exec (.chaseParams off gain slew window lockRun unlock sync) s = .next { s with part := stored.reply 0x48 off answer })
     ∧ ((∃ d : DeckNo, (s.part.deck d).chase.state ≠ .off) →
       exec (.chaseParams off gain slew window lockRun unlock sync) s
         = .next { s with part := s.part.reply 0x48 off .busy }))

/-- Every step keeps at most one RECORDER, no input with two decks, and record ON wanted of the recorder alone (R79
to R81, R94, R101, R141). -/
def Obligations.DeckTableStaysSound : Prop :=
  ∀ s t : State, s.part.tableSound = true → step s = .next t → t.part.tableSound = true

/-! ## Deck lines -/

/-- DECK_DIRECT for a deck with a role, outside the active event and with none pending, leaves one pending command
with its speed for VARIABLE and its label for CUE_TO; a deck that is held or has one pending is answered BUSY, one
of role NONE STATE (R104). That a command other than VARIABLE keeps speed 0 and one other than CUE_TO no label, whatever
the host sent, is the model's choice (log entry 39). -/
def Obligations.DirectCommandLeft : Prop :=
  ∀ (s : State) (off code : Nat) (d : DeckNo) (c : DirectCommand) (speed : Int) (raw : RawLabel) (l : Label) (n : Bool),
    directOf code = some c → readLabel s.part.counting raw = some (l, n) →
    let left : Direct :=
      { command := c, speed := if c = .variableSpeed then speed else 0, cue := if c = .cueTo then some l else none }
    let answer : Answer := { result := .accepted, normalised := n }
    (s.part.inActiveEvent d = false → (s.part.deck d).direct = none → (s.part.deck d).role ≠ .noRole →
      exec (.deckDirect off d.val code speed raw) s
        = .next { s with part := (s.part.modDeck d (fun k => { k with direct := some left })).reply 0x43 off answer })
    ∧ (s.part.inActiveEvent d = true ∨ (s.part.deck d).direct ≠ none →
      exec (.deckDirect off d.val code speed raw) s = .next { s with part := s.part.reply 0x43 off .busy })
    ∧ (s.part.inActiveEvent d = false → (s.part.deck d).direct = none → (s.part.deck d).role = .noRole →
      exec (.deckDirect off d.val code speed raw) s = .next { s with part := s.part.reply 0x43 off .state })

/-- At its slot line a port with a role and no transaction in flight sends the first of these that applies (R94): the
record level, ON to the RECORDER alone; the wanted transport, unless a direct command holds it (R102); the wanted speed,
while PLAY is wanted, was sent and is reported; the pending direct command; a POLL, where the prescaler has counted down.
In LOCAL and ABSENT the first four wait. Sending writes the sent record (R91, R93), starts the transaction (R92), and
reloads the prescaler, with 1 for a deck of the active event whose line is not ABSENT (R95). With nothing to send, with a
transaction still in flight, and for a deck with no role, the prescaler alone counts down. A transaction at its deadline
ends as a timeout first (R100), whose line state change is acted on before the same slot line counts down and arbitrates
(log entry 16, DEDUCED). That a frame goes out behind one whose last stop bit is still to come is the model's choice (log
entry 38). -/
def Obligations.SlotLineSends : Prop :=
  ∀ (s : State) (d : DeckNo),
    let k := s.part.deck d
    let q := s.part.port d
    let c := s.part.counting
    let every : Bool := s.part.inActiveEvent d && k.line != .absent
    let left : Nat := (if every then min q.prescaler 1 else q.prescaler) - 1
    let counts : Prop := exec (.slotLine d) s = .next { s with part := s.part.modPort d (fun x => { x with prescaler := left }) }
    let sends (f : Frame) (hold : Bool) (after : Deck) : Prop :=
      exec (.slotLine d) s = .next { s with part := (s.part.modDeck d (fun _ => after)).modPort d (fun x => { x with
        flight := some { frame := f, field := s.part.rtu.fieldCount, bytes := [] }, sending := x.sending ++ [f]
        directHold := hold, prescaler := if every then 1 else k.params.poll }) }
    let free : Prop := k.line = .unknown ∨ k.line = .online
    let wanted : Sent := match k.want with
      | .stop => .stop
      | .still => .still
      | .play => .play
      | .cueTo n => .cueTo n
    let frame : Frame := match k.want with
      | .stop => .stop
      | .still => .still
      | .play => .play
      | .cueTo n => .cueTo n (frameBytes c n)
    let record : Prop := free ∧ k.sentRecord ≠ some k.wantRecord ∧ (k.wantRecord = true → k.role = .recorder)
    let transport : Prop := free ∧ q.directHold = false ∧ k.sent ≠ wanted
    let speed : Prop := free ∧ k.want = .play ∧ k.sent = .play ∧ (k.transport = .play ∨ k.transport = .variableSpeed)
      ∧ k.sentSpeed ≠ some k.wantSpeed
    (k.role = .noRole → q.flight = none → counts)
    ∧ (∀ x, q.flight = some x → x.field = s.part.rtu.fieldCount → counts)
    ∧ (∀ x, q.flight = some x → x.field ≠ s.part.rtu.fieldCount → ∃ p : Part,
        exec (.deckTimeout d) s = .next { s with part := p }
        ∧ exec (.slotLine d) s = exec (.slotLine d) { s with part := p })
    ∧ (k.role ≠ .noRole → q.flight = none →
        (record → sends (if k.wantRecord then .recordOn q.tracks else .recordOff) q.directHold
          { k with sentRecord := some k.wantRecord })
        ∧ (¬ record → transport → sends frame q.directHold { k with sent := wanted, sentSpeed := none })
        ∧ (¬ record → ¬ transport → speed → sends (.variableSpeed k.wantSpeed) q.directHold
            { k with sentSpeed := some k.wantSpeed })
        ∧ (¬ record → ¬ transport → ¬ speed → free → ∀ x, k.direct = some x →
            let gone : Deck := { k with direct := none }
            (x.command = .variableSpeed → sends (.variableSpeed x.speed) q.directHold { gone with sentSpeed := some x.speed })
            ∧ (x.command = .recordOff → sends .recordOff q.directHold { gone with sentRecord := some false })
            ∧ (x.command = .cueTo → ∀ l, x.cue = some l → sends (.cueTo (labelCount c l) (formedLabel c l)) true
                { gone with sent := .cueTo (labelCount c l), sentSpeed := none })
            ∧ ∀ y ∈ [(DirectCommand.play, Frame.play, Sent.play), (.stop, .stop, .stop), (.still, .still, .still)
                , (.fastFwd, .fastFwd, .fastFwd), (.rewind, .rewind, .rewind), (.eject, .eject, .eject)],
                x.command = y.1 → sends y.2.1 true { gone with sent := y.2.2, sentSpeed := none })
        ∧ (¬ record → ¬ transport → ¬ speed → ¬ (free ∧ k.direct ≠ none) →
            (left = 0 → sends .poll q.directHold k) ∧ (left ≠ 0 → counts)))

/-- A RECORD_ON frame is sent on a deck line only to the RECORDER while its wanted record level is ON: where a slot
line leaves such a frame in flight that was not in flight before, the deck is the recorder and wants record
(R94). -/
def Obligations.RecordOnOnlyToTheRecorder : Prop :=
  ∀ (s t : State) (d e : DeckNo) (x : Flight) (tracks : BitVec 4), exec (.slotLine d) s = .next t →
    (t.part.port e).flight = some x → x.frame = .recordOn tracks → (s.part.port e).flight ≠ some x →
    e = d ∧ (s.part.deck d).role = .recorder ∧ (s.part.deck d).wantRecord = true

/-- The end of a frame turns the line to receive where no frame stands behind it, and receiving begins afresh (R89; log
entry 38 for one that does). A good reply that the port awaits ends the transaction and is written into the deck record,
with the line state it shows; DECK_LOCAL is set at an entry into LOCAL. DECK_REFUSED follows a refusal, which puts the
sent item of its frame back (R97, R99). A reply that no transaction awaits, or that comes while the port sends, is
discarded. The reply is a measurement for the TCU too (R64 to R68): discarded while the counting is unsettled, with
NO_TAPE and where the label is refused; otherwise the deck age becomes 0, and the record is replaced where the deck
prefers its replies or has had no VITC for more than two field starts. A deck of the active event that goes LOCAL before
POSTROLL fails it (R146): with DECK_LOCAL, where no chase or cue of the deck is judged by the reply. Of the recorder,
outside CUE and with no chase of its own, a DONE to a record frame writes the recorded field from the reply's label, and
a REFUSED RECORD_ON fails the event in RECORD with RECORD_REFUSED (R142). Where that reply's local flag changes the line
state too, that it is read before the line state fails the event is the model's reading (log entry 15, DEDUCED). That
FRAME_SEND_END changes nothing where nothing is sent, and ends the frame on the line at whatever instant it comes, is
the model's choice (log entry 48, DESIGN CHOICE). -/
def Obligations.DeckReplyTaken : Prop :=
  ∀ (s : State) (d : DeckNo) (r : DeckReply),
    let own := s.part.deck d
    let k := own.position
    let c := s.part.counting
    let eds := s.part.eds
    let v : Int := match r.transport with
      | .play => 256
      | .record => 256
      | .variableSpeed => r.speed
      | _ => 0
    (∀ f rest, (s.part.port d).sending = f :: rest →
      let turned : Part := s.part.modPort d (fun q => { q with sending := rest, sent := 0, incoming := none })
      exec (.frameSendEnd d) s = .next { s with part := turned })
    ∧ ((s.part.port d).sending = [] → exec (.frameSendEnd d) s = .next s)
    ∧ ((s.part.port d).flight = none ∨ (s.part.port d).sending ≠ [] → exec (.deckReplyGood d r) s = .next s)
    ∧ (∀ x : Flight, (s.part.port d).flight = some x → (s.part.port d).sending = [] →
        ∃ p : Part, exec (.deckReplyGood d r) s = .next { s with part := p }
          ∧ (p.port d).flight = none ∧ (p.deck d).timeouts = 0 ∧ (p.deck d).transport = r.transport
          ∧ (p.deck d).servo = r.servo ∧ (p.deck d).inhibit = r.inhibit ∧ (p.deck d).isLocal = r.isLocal
          ∧ (p.deck d).speed = r.speed ∧ (p.deck d).line = (if r.isLocal then LineState.inLocal else .online)
          ∧ (p.deck d).lastReply = some { code := x.frame.code, refused := r.refused, reason :=
              if r.refused = false then 0 else if 1 ≤ r.reason ∧ r.reason ≤ 4 then r.reason else 4 }
          ∧ (p.noticeSet .deckRefused = true ↔ s.part.noticeSet .deckRefused = true ∨ r.refused = true)
          ∧ (p.noticeSet .deckLocal = true ↔
              s.part.noticeSet .deckLocal = true ∨ (r.isLocal = true ∧ own.line ≠ .inLocal))
          ∧ (p.deck d).sentRecord = (match r.refused, x.frame with
              | true, .recordOn _ => some false
              | true, .recordOff => some true
              | _, _ => own.sentRecord)
          ∧ (eds.phase ≠ .cue → (p.deck d).sent = if r.refused = true ∧ x.frame.code ∈ [2, 3, 4, 5, 6, 8, 11]
              then .unknown else own.sent)
          ∧ (p.deck d).sentSpeed = (if r.refused = true ∧ x.frame.code = 7 then none else own.sentSpeed)
          ∧ p.rtu = s.part.rtu ∧ p.sius = s.part.sius ∧ p.gtu = s.part.gtu
          ∧ (∀ e : DeckNo, e ≠ d → (p.deck e).position = (s.part.deck e).position)
          ∧ (s.part.tcu.settled = false ∨ r.transport = .noTape ∨ readLabel c r.label = none → (p.deck d).position = k)
          ∧ (s.part.tcu.settled = true → r.transport ≠ .noTape → ∀ y, readLabel c r.label = some y →
              let gone : Int := v * (((s.part.rtu.fieldCount : Int) - x.field) % 2 ^ 24)
              let seen : PosRec := { k with deckAge := 0, tcSource := r.source }
              (k.preference = .deckFirst ∨ 2 < k.vitcAge → (p.deck d).position = { seen with
                position := ((labelPosition c y.1 + gone / 256) % c.day).toNat, acc := (gone % 256).toNat
                valid := true, source := .deck, age := 0 })
              ∧ (k.preference = .vitcFirst → k.vitcAge ≤ 2 → (p.deck d).position = seen))
          ∧ (∀ n, eds.active = some n → s.part.inActiveEvent d = true → r.isLocal = true → own.line ≠ .inLocal →
              eds.phase ∈ [Phase.cue, .hold, .roll, .record] →
              (p.slot n).state = .failed ∧ p.eds.phase = .idle ∧ p.noticeSet .eventFailed = true
              ∧ (own.chase.state = .off ∨ own.chase.state = .lost → (eds.phase = .cue → r.transport ≠ .still) →
                  (eds.phase = .record → ∀ tracks, x.frame ≠ .recordOn tracks) → (p.slot n).run.reason = .deckLocal))
          ∧ (∀ n, eds.active = some n → s.part.recorder = some d → eds.phase ≠ .cue →
              own.chase.state = .off ∨ own.chase.state = .lost →
              (s.part.tcu.settled = true → r.transport ≠ .noTape → ∀ y, readLabel c r.label = some y → r.refused = false →
                let at_ : Nat := (labelPosition c y.1 + 2 * own.params.recordLead) % c.day
                (∀ tracks, x.frame = .recordOn tracks → (p.slot n).run.recordOn = some at_)
                ∧ (x.frame = .recordOff → (p.slot n).run.recordOff = some at_))
              ∧ (∀ tracks, x.frame = .recordOn tracks → r.refused = true → eds.phase = .record →
                (p.slot n).state = .failed ∧ (p.slot n).run.reason = .recordRefused ∧ p.eds.phase = .idle
                ∧ p.noticeSet .eventFailed = true ∧ (p.deck d).wantRecord = false)))

/-- A bad reply, and a transaction still in flight at its deadline, count as one timeout (R96, R100): below eight
the line state stays, the prescaler becomes 1 and DECK_TIMEOUT is set; the eighth makes the line ABSENT with
DECK_ABSENT, and a deck of the active event that becomes ABSENT so in CUE, HOLD, ROLL or RECORD fails it with DECK_LOST,
the engine otherwise staying as it is (R146); in ABSENT only the transaction ends. That a frame still on the line at the
deadline goes on to its last stop bit is the model's choice (log entry 38). -/
def Obligations.TimeoutCounted : Prop :=
  ∀ (s : State) (d : DeckNo) (c : Instr) (x : Flight), (s.part.port d).flight = some x →
    (c = .deckReplyBad d ∧ (s.part.port d).sending = [])
      ∨ (c = .deckTimeout d ∧ x.field ≠ s.part.rtu.fieldCount) →
    let k := s.part.deck d
    let eds := s.part.eds
    let hit : Prop := s.part.inActiveEvent d = true ∧ eds.phase ∈ [Phase.cue, .hold, .roll, .record]
    (k.line ≠ .absent → k.timeouts < 7 → exec c s = .next { s with part := { ((s.part.modDeck d (fun y =>
        { y with timeouts := k.timeouts + 1 })).modPort d (fun q =>
        { q with flight := none, prescaler := 1 })) with
        pku := { s.part.pku with notices := s.part.pku.notices ||| 64#18 } } })
    ∧ (k.line ≠ .absent → k.timeouts = 7 → ∃ p : Part, exec c s = .next { s with part := p }
        ∧ (p.deck d).line = .absent ∧ (p.deck d).timeouts = 8 ∧ (p.port d).flight = none
        ∧ p.noticeSet .deckTimeout = true ∧ p.noticeSet .deckAbsent = true
        ∧ (hit → ∀ n, eds.active = some n →
            p.slot n = { s.part.slot n with state := .failed, run := { (s.part.slot n).run with reason := .deckLost } }
            ∧ p.eds.phase = .idle ∧ p.eds.active = none ∧ p.noticeSet .eventFailed = true)
        ∧ (¬ hit → p.eds = eds))
    ∧ (k.line = .absent → k.timeouts = 8 →
      let freed : Part := s.part.modPort d (fun q => { q with flight := none })
      exec c s = .next { s with part := freed })

/-- The bytes of every frame, sync through check, sum to 0 modulo 256 (2.11.8). -/
def Obligations.FrameSumsToZero : Prop :=
  ∀ f : Frame, byteSum f.bytes = 0 ∧ f.bytes.length = 4 + f.data.length ∧ f.bytes.head? = some 0xC3

/-! ## Chase -/

/-- The chase error lies in the half-day either side and vanishes exactly when the player stands where the
recorder's offset puts it (R109). The speed demand is 256 less the error times G/4, rounded to the nearest with halves
away from zero and held within SLEW (R110). A VITC reading, or a good deck reply, that replaces the record of a chasing
player makes one computation against the recorder at once, outside the instant of a field start (R63, R108); where the
next field start is due and its step not yet made, it is held, and FIELD_START makes it on the two advanced records, in
whatever order its work is asked for (that the field start has come there is log entry 35, DEDUCED). With an invalid
record none is made, and a deck whose chase is OFF or LOST is not computed for (R107, R108, R114). An error beyond the
capture window loses the deck with CHASE_RANGE in ROLL and RECORD (R112, R146); within it the error and the demand are
written and the lock judgement is made (R110, R111); with the sync watch on, an error beyond the record-sync limit then
fails the event with SYNC_LOST in RECORD (R115). The FIELD_START clause is for a field start at which nothing else moves
the event: no second computation held, no record going stale, no PLAY of the deck, record-on, out-point, end of postroll
or guard falling due, and no GPI input that triggers or stops. A chasing player whose record goes stale, or whose
recorder's does, is lost with POSITION_STALE (R113). -/
def Obligations.ChaseErrorAndSpeed : Prop :=
  let outcome (s : State) (d : DeckNo) (made : Bool) (f : FieldId) (e : Int) (p : Part) : Prop :=
    let q := s.part.chu.params
    let k := (s.part.deck d).chase
    let eds := s.part.eds
    let j := (p.deck d).chase
    let goesOn : Prop := p.eds.phase = eds.phase ∧ p.eds.active = eds.active
    let fails (why : Reason) : Prop := ∀ n, eds.active = some n →
      p.slot n = { s.part.slot n with state := .failed, run := { (s.part.slot n).run with reason := why } }
      ∧ p.eds.phase = .idle ∧ j.state = .off
    let apart : Prop := s.part.chu.syncWatch = true ∧ q.sync < e.natAbs
    (made = false ∨ k.state = .off ∨ k.state = .lost → j = k ∧ goesOn)
    ∧ (made = true → k.state = .pullIn ∨ k.state = .locked →
      (q.window < e.natAbs → eds.phase = .roll ∨ eds.phase = .record → fails .chaseRange)
      ∧ (q.window < e.natAbs → eds.phase ≠ .roll → eds.phase ≠ .record →
          goesOn ∧ j = { k with state := .lost, error := e, lockCount := 0 })
      ∧ (e.natAbs ≤ q.window → apart → eds.phase = .record → fails .syncLost)
      ∧ (e.natAbs ≤ q.window → (eds.phase ≠ .record ∨ ¬ apart) →
          goesOn ∧ j.error = e ∧ j.speed = speedLaw q e ∧ (p.deck d).wantSpeed = speedLaw q e
          ∧ (k.state = .pullIn → f = .one → e = 0 → j.lockCount = min (k.lockCount + 1) q.lockRun
              ∧ j.state = if q.lockRun ≤ k.lockCount + 1 then .locked else .pullIn)
          ∧ (k.state = .pullIn → f = .one → e ≠ 0 → j.lockCount = 0 ∧ j.state = .pullIn)
          ∧ (k.state = .pullIn → f = .two → j.lockCount = k.lockCount ∧ j.state = .pullIn)
          ∧ (k.state = .locked → e.natAbs < q.unlock → j.lockCount = k.lockCount ∧ j.state = .locked)
          ∧ (k.state = .locked → q.unlock ≤ e.natAbs → j.lockCount = 0 ∧ j.state = .pullIn)))
  (∀ (c : Counting) (player recorder playerIn recorderIn : Nat),
    let e : Int := chaseError c player recorder playerIn recorderIn
    (-(c.dayFrames : Int) ≤ e) ∧ e < c.dayFrames
    ∧ (e = 0 ↔ ((player : Int) - playerIn) % c.day = ((recorder : Int) - recorderIn) % c.day))
  ∧ (∀ (q : ChaseParams) (e : Int),
    let y : Int := e * q.gain
    ∃ r : Int, (4 * r - y).natAbs ≤ 2 ∧ ((4 * r - y).natAbs = 2 → y.natAbs ≤ (4 * r).natAbs)
      ∧ speedLaw q e = 256 - max (-(q.slew : Int)) (min q.slew r))
  ∧ (∀ (s : State) (c : Instr) (d r : DeckNo),
    let k := s.part.deck d
    let o := s.part.chu.own.get d
    let byVitc : Prop := ∃ (i : Input) (first second : VitcLine) (x : Label) (drop : Bool) (f : Nat),
      c = .vitcReading i first second ∧ (s.part.siu i).state = .inWindow ∧ (s.part.siu i).matchedField = some f
      ∧ readingOf s.part.rtu.std ((s.part.siu i).vitcInUse.1 == (s.part.siu i).vitcInUse.2) first second = some (x, drop)
      ∧ s.part.holder i = some d ∧ labelInRange s.part.counting x = true
      ∧ (k.position.preference = .vitcFirst ∨ 2 < k.position.deckAge)
    let byReply : Prop := ∃ (y : DeckReply) (x : Flight) (l : Label × Bool),
      c = .deckReplyGood d y ∧ (s.part.port d).flight = some x ∧ (s.part.port d).sending = []
      ∧ k.role ≠ .recorder ∧ s.part.eds.phase ≠ .cue ∧ (y.isLocal = false ∨ k.line = .inLocal)
      ∧ y.transport ≠ .noTape ∧ readLabel s.part.counting y.label = some l
      ∧ (k.position.preference = .deckFirst ∨ 2 < k.position.vitcAge)
    byVitc ∨ byReply → s.part.recorder = some r → s.part.tcu.settled = true →
    ∃ p : Part, exec c s = .next { s with part := p }
      ∧ (s.part.rtu.fieldStartDue = false →
          outcome s d (decide (d = r) || (s.part.deck r).position.valid) s.part.rtu.fieldId
            (chaseError s.part.counting (p.deck d).position.position (p.deck r).position.position o.playerIn o.recorderIn) p
          ∧ (s.part.eds.active = none ∨ p.eds.active = s.part.eds.active → p.eds = s.part.eds)
          ∧ (o.pending = false → (p.chu.own.get d).pending = false))
      ∧ (s.part.rtu.fieldStartDue = true →
          (p.deck d).chase = k.chase ∧ p.eds = s.part.eds
          ∧ (k.chase.state = .off ∨ k.chase.state = .lost → p.chu.own.get d = o)
          ∧ (k.chase.state = .pullIn ∨ k.chase.state = .locked → p.chu.own.get d = { o with pending := true })))
  ∧ (∀ (s : State) (pins : BitVec 4) (order : List FieldWork) (d r : DeckNo),
    let c := s.part.counting
    let o := s.part.chu.own.get d
    let eds := s.part.eds
    let a (x : DeckNo) : PosRec :=
      (s.part.deck x).position.advanced c.day (s.part.deck x).transport (s.part.deck x).speed
    let short (point : Int) : Prop := c.sym ((a r).position - point) < 0
    s.part.pku.fullPending = false → (∀ x, (s.part.deck x).role = .recorder ↔ x = r) → d ≠ r → o.pending = true →
    (∀ x, x ≠ d → (s.part.chu.own.get x).pending = false) → (∀ x, (a x).valid = true → (a x).age ≤ 30) →
    eds.phase ∈ [Phase.roll, .record, .postroll] →
    (eds.phase = .roll →
      (eds.rollField + 2 ^ 24 - (s.part.deck d).params.playLead) % 2 ^ 24 ≠ (s.part.rtu.fieldCount + 1) % 2 ^ 24
      ∧ ∀ arm, s.part.activeArm = some arm → short (2 * ((arm.recordIn : Int) - (s.part.deck r).params.recordLead))) →
    (eds.phase = .record → ∀ point, eds.outPoint = some point → short (2 * (point : Int))) →
    (eds.phase = .postroll → 1 < eds.postroll) →
    (eds.guardRunning = true → min 60 (eds.guardCount + 1) < eds.guardLimit) →
    (∀ n : Fin 4, (s.part.gtu.gpis.get n).role = .noRole ∨ (s.part.gtu.gpis.get n).role = .mark) →
    ∃ p : Part, exec (.fieldStart pins order) s = .next { s with part := p }
      ∧ (p.chu.own.get d).pending = false
      ∧ outcome s d ((a d).valid && (a r).valid) p.rtu.fieldId
          (chaseError c (a d).position (a r).position o.playerIn o.recorderIn) p)
  ∧ ∀ (s : State) (d x : DeckNo) (n : SlotNo), s.part.eds.active = some n → s.part.eds.phase = .roll ∨ s.part.eds.phase = .record →
    (s.part.deck d).position.valid = true → 30 < (s.part.deck d).position.age →
    ∃ p : Part, exec (.positionStale d) s = .next { s with part := p }
      ∧ ((x = d ∨ (s.part.deck d).role = .recorder) →
          (s.part.deck x).chase.state = .pullIn ∨ (s.part.deck x).chase.state = .locked →
          p.slot n = { s.part.slot n with state := .failed, run := { (s.part.slot n).run with reason := .positionStale } }
          ∧ p.eds.phase = .idle ∧ (p.deck x).chase.state = .off)
      ∧ ((s.part.deck d).role ≠ .recorder → (s.part.deck d).chase.state = .off ∨ (s.part.deck d).chase.state = .lost →
          p.eds = s.part.eds ∧ (p.deck d).chase = (s.part.deck d).chase)

/-! ## The edit list -/

/-- An EVENT_LOAD whose structural values are in range, of a slot that is not ACTIVE, leaves the slot LOADED with the
record and no results; every other slot and everything else stays (R119 to R121). The record holds the operands, the
tuning numbers clamped into the ranges of Table 8-2, each label as R25 and R39 read it under the counting in use with
that counting's drop-frame indication; the reply lists the operands clamped and says whether a label was normalised
(R24, R120). An ACTIVE slot is refused with BUSY. EVENT_CLEAR makes any slot but the ACTIVE one EMPTY, and refuses that
one with BUSY; EVENT_READ returns the slot as it stands, the ACTIVE one included, and changes nothing (R122, R123): the
state, the record in the operand order of Table 8-2 with each label as stored, the arm results in the order that
EventArmed states, the run results, in the forms of R37, absent parts being zeros. That a stored label keeps the
drop-frame indication of the counting at its load is the model's reading (log entry 19, DEDUCED); what EVENT_READ writes
for the results of an EMPTY slot is the model's choice (log entry 6, DESIGN CHOICE). -/
def Obligations.SlotLoadedClearedRead : Prop :=
  (∀ (s : State) (off : Nat) (ops : EventOperands) (n : SlotNo) (e : EventRecord),
     eventRecordOf s.part.counting ops = some (n, e) →
     let c := s.part.counting
     let stored (raw : RawLabel) (l : StoredLabel) : Prop :=
       readLabel c raw = some (l.label, l.normalised) ∧ l.drop = c.drop
     let source (x : SourceOperand) (y : EventSource) : Prop := y.deck.val = x.deck ∧ stored x.play y.play
     let out (number lo hi v : Nat) : List Nat := if lo ≤ v ∧ v ≤ hi then [] else [number]
     let bad : List Nat := (if ops.length.alt = 0 then out 4 1 2591999 ops.length.value else [])
       ++ out 7 1 999 ops.duration ++ out 11 0 255 ops.softness ++ out 12 0 1800 ops.preroll ++ out 13 0 600 ops.postroll
       ++ (if ops.key.presence = 1 then out 19 0 1023 ops.key.clip ++ out 20 1 255 ops.key.gain else [])
     let normal : Bool := (e.recordIn.any fun l => l.normalised) || e.source1.play.normalised
       || (e.source2.any fun x => x.play.normalised) || (e.key.any fun x => x.fillIn.normalised)
     let answer : Answer :=
       { result := if bad = [] then .accepted else .clamped, clamped := bad, normalised := normal }
     (n.val = ops.slot ∧ (e.kind = .insert ↔ ops.kind = 0)
       ∧ (ops.recordIn.alt = 0 → ∃ l, e.recordIn = some l ∧ stored ops.recordIn.label l)
       ∧ (ops.recordIn.alt ≠ 0 → e.recordIn = none)
       ∧ (ops.length.alt = 0 → e.length = some (max 1 (min 2591999 ops.length.value)))
       ∧ (ops.length.alt ≠ 0 → e.length = none)
       ∧ e.transition.code = ops.transition ∧ e.start = ops.start ∧ e.duration = max 1 (min 999 ops.duration)
       ∧ e.pattern = ops.pattern ∧ e.curve = ops.curve ∧ (e.reverse = true ↔ ops.reverse = 1)
       ∧ e.softness = min 255 ops.softness ∧ e.preroll = min 1800 ops.preroll ∧ e.postroll = min 600 ops.postroll
       ∧ (e.hold = .beforeRoll ↔ ops.hold = 1) ∧ e.tracks.toNat = ops.tracks
       ∧ (ops.key.presence ≠ 1 → e.key = none)
       ∧ (ops.key.presence = 1 → ∃ k, e.key = some k ∧ k.fillDeck.val = ops.key.fillDeck ∧ stored ops.key.fillIn k.fillIn
           ∧ inputCode k.keyInput = ops.key.keyInput ∧ k.clip = min 1023 ops.key.clip
           ∧ k.gain = max 1 (min 255 ops.key.gain) ∧ (k.invert = true ↔ ops.key.invert = 1)
           ∧ k.onOffset = ops.key.onOffset ∧ k.offOffset = ops.key.offOffset)
       ∧ source ops.entry1 e.source1 ∧ (ops.sourceCount ≠ 2 → e.source2 = none)
       ∧ (ops.sourceCount = 2 → ∃ y, e.source2 = some y ∧ source ops.entry2 y))
     ∧ ((s.part.slot n).state ≠ .active →
         let loaded : Slot := { state := .loaded, event := some e, arm := none, run := .fresh }
         exec (.eventLoad off ops) s
           = .next { s with part := (s.part.modSlot n (fun _ => loaded)).reply 0x50 off answer })
     ∧ ((s.part.slot n).state = .active →
         exec (.eventLoad off ops) s = .next { s with part := s.part.reply 0x50 off .busy }))
  ∧ (∀ (s : State) (off : Nat) (n : SlotNo),
     ((s.part.slot n).state ≠ .active → exec (.eventClear off n.val) s
       = .next { s with part := (s.part.modSlot n (fun _ => Slot.empty)).reply 0x51 off .accepted })
     ∧ ((s.part.slot n).state = .active → exec (.eventClear off n.val) s
       = .next { s with part := s.part.reply 0x51 off .busy })
     ∧ (∀ k : Nat, 64 ≤ k → exec (.eventClear off k) s = .next { s with part := s.part.reply 0x51 off (.badValue 1) })
     ∧ (let c := s.part.counting
       let x := s.part.slot n
       let flag (b : Bool) : Int := if b then 1 else 0
       let half (f : FieldId) : Int := match f with | .one => 0 | .two => 1
       let two (v : Nat) : List Int := [(v : Int) / 256, v]
       let three (v : Nat) : List Int := (v : Int) / 65536 :: two v
       let label (l : StoredLabel) : List Int := [l.label.hh, l.label.mm, l.label.ss, l.label.ff
         , half l.label.field + 4 * flag l.normalised + 8 * flag l.drop]
       let entry (y : EventSource) : List Int := y.deck.val :: label y.play
       let record (e : EventRecord) : List Int :=
         [(match e.kind with | .insert => 0 | .preview => 1 : Int)]
         ++ (match e.recordIn with | some l => 0 :: label l | none => [1, 0, 0, 0, 0, 0])
         ++ (match e.length with | some v => 0 :: three v | none => [1, 0, 0, 0])
         ++ [(match e.transition with | .cut => 0 | .mix => 1 | .wipe => 2 : Int)] ++ three e.start ++ two e.duration
         ++ [(e.pattern : Int), e.curve, flag e.reverse, e.softness] ++ two e.preroll ++ two e.postroll
         ++ [(match e.hold with | .noHold => 0 | .beforeRoll => 1 : Int), (e.tracks.toNat : Int)]
         ++ (match e.key with
            | some k => [1, (k.fillDeck.val : Int)] ++ label k.fillIn ++ [(match k.keyInput with | .a => 0 | .b => 1 | .c => 2 : Int)]
                ++ two k.clip ++ [(k.gain : Int), flag k.invert] ++ three k.onOffset ++ three k.offOffset
            | none => List.replicate 18 0)
         ++ (match e.source2 with | some y => 2 :: (entry e.source1 ++ entry y) | none => 1 :: entry e.source1)
       let recorded (f : Option Nat) : List Int := match f with
         | some v => let l := positionLabel c v
             [1, (l.hh : Int), l.mm, l.ss, l.ff, half l.field + 8 * flag c.drop]
         | none => [0, 0, 0, 0, 0, 0]
       let reasons : List Reason := [.noReason, .cueMiss, .cueTimeout, .notLocked, .refLost, .deckLocal, .deckLost
         , .recordRefused, .chaseRange, .syncLost, .standardChange, .hostAbort, .allStop, .engineReset, .positionStale]
       let before : List Int :=
         [(match x.state with
            | .empty => 0 | .loaded => 1 | .armed => 2 | .active => 3 | .done => 4 | .failed => 5 | .aborted => 6 : Int)]
         ++ (match x.event with | some e => 1 :: record e | none => List.replicate 47 0)
       let after : List Int := [(reasons.findIdx (fun y => y == x.run.reason) : Int)] ++ recorded x.run.recordOn
         ++ recorded x.run.recordOff ++ [flag x.run.substituted]
       let answer : Answer :=
         { result := .accepted
           payload := before.map (BitVec.ofInt 8)
             ++ (match x.arm with | some a => 1 :: armBytes c a | none => List.replicate 37 0) ++ after.map (BitVec.ofInt 8) }
       exec (.eventRead off n.val) s = .next { s with part := s.part.reply 0x52 off answer }))

/-- EVENT_ARM of a LOADED, DONE, FAILED or ABORTED slot (R124). The arm validation judges the event in order, and the
first test that fails decides the reply: a recorder, the players and the key input (R125); then the in-points, the mark
stack popped for MARK (R126), the cue points and the out-point (R127), the timing and content (R128), pattern and curve
(R129). A refused arm leaves everything as it was but for a mark popped, which the reply reports. That the reply of a
refused arm reports no normalised label, also where step 4 had normalised one and R126 has the reply carry the
indication, is the model's reading of R23 (log entry 20, DEDUCED). Where no test fails, the slot is ARMED with the arm
results, and the run results start afresh; the reply returns the arm results in the order of R129 and the forms of R37,
each label with the drop-frame indication of the counting in use. An EMPTY or ARMED slot is refused with STATE, the
ACTIVE one with BUSY. -/
def Obligations.EventArmed : Prop :=
  ∀ (s : State) (off : Nat) (n : SlotNo),
    (∀ e : EventRecord, (s.part.slot n).event = some e →
      (s.part.slot n).state ∈ [SlotState.loaded, .done, .failed, .aborted] →
      let c := s.part.counting
      let stack := s.part.tcu.marks
      let left : List Mark := if e.recordIn = none then stack.drop 1 else stack
      let spent : Bool := e.recordIn.isNone && !stack.isEmpty
      let popped : Part := { s.part with tcu := { s.part.tcu with marks := left } }
      let plays (d : DeckNo) : Bool := (s.part.deck d).role == .player && (s.part.deck d).input.isSome
      let bad (l : StoredLabel) : Bool := !labelInRange c l.label
      let early (n : Nat) : Bool := n < e.preroll
      let count (l : StoredLabel) : Nat := labelCount c l.label
      let recordIn : Nat := match e.recordIn with
        | some l => count l
        | none => (stack.head?.map (fun m => m.position / 2)).getD 0
      let fill : Option StoredLabel := e.key.bind (fun k => if e.hasBackground k.fillDeck then none else some k.fillIn)
      let borrow (operand : Nat) : Answer := { result := .badValue, operand := operand, borrow := true }
      let wrap : Answer := { result := .badValue, operand := 4, wrap := true }
      let decks : List (Bool × Answer) :=
        [(s.part.recorder.isNone, .state), (!plays e.source1.deck, .state), (e.source2.any (fun x => !plays x.deck), .state)
         , (e.key.any (fun k => !plays k.fillDeck), .state), (e.source2.any (fun x => x.deck == e.source1.deck), .badValue 26)
         , (e.key.any (fun k => (s.part.holder k.keyInput).any (fun d => (s.part.deck d).role == .recorder)), .state)]
      let values : List (Bool × Answer) :=
        [(e.recordIn.any bad, .badValue 3), (e.recordIn.isNone && stack.isEmpty, .noMark)
         , (bad e.source1.play, .badValue 25), (e.source2.any (fun x => bad x.play), .badValue 27), (fill.any bad, .badValue 17)
         , (early recordIn, borrow 3), (early (count e.source1.play), borrow 25)
         , (e.source2.any (fun x => early (count x.play)), borrow 27), (fill.any (fun l => early (count l)), borrow 17)
         , (e.length.any (fun l => decide (c.dayFrames ≤ recordIn + l)), wrap)
         , (e.transition != .cut && e.source2.isNone, .badValue 5), (e.length.any (fun l => decide (l ≤ e.start)), .badValue 6)
         , (e.key.any (fun k => decide (k.offOffset ≤ k.onOffset)), .badValue 22)
         , (e.key.any (fun k => e.length.any (fun l => decide (l < k.offOffset))), .badValue 23)
         , (e.kind == .insert && e.tracks == 0, .badValue 15), (decide (15 < e.pattern), .badValue 8)
         , (decide (3 < e.curve), .badValue 9)]
      (∀ x, decks.find? (fun y => y.1) = some x →
        exec (.eventArm off n.val) s = .next { s with part := s.part.reply 0x53 off x.2 })
      ∧ (decks.find? (fun y => y.1) = none → ∀ x, values.find? (fun y => y.1) = some x →
          exec (.eventArm off n.val) s = .next { s with part := popped.reply 0x53 off { x.2 with notRestored := spent } })
      ∧ (decks.find? (fun y => y.1) = none → values.find? (fun y => y.1) = none →
          ∃ (r : ArmResults) (normalised : Bool), s.part.validateArm e = { marks := left, outcome := .ok (r, normalised) })
      ∧ ∀ (marks : List Mark) (r : ArmResults) (normalised : Bool),
          s.part.validateArm e = { marks := marks, outcome := .ok (r, normalised) } →
          let flag (b : Bool) : Nat := if b then 1 else 0
          let label (n : Nat) : List Nat :=
            let l := countLabel c n .one
            [l.hh, l.mm, l.ss, l.ff, 8 * flag c.drop]
          let player (x : ArmedDeck) : List Nat := x.deck.val :: (label x.inPoint ++ label x.cue)
          let items : List Nat := r.recorder.val :: label r.recordIn
            ++ (match r.mark with
              | some (d, .g x) => [1, d.val, x.val]
              | some (d, .host) => [1, d.val, 4]
              | none => [0, 0, 0])
            ++ (match r.outPoint with | some n => 0 :: label n | none => [1, 0, 0, 0, 0, 0])
            ++ label r.recorderCue
            ++ (match r.source2 with
              | some x => 2 :: (player r.source1 ++ player x)
              | none => 1 :: player r.source1)
            ++ (match r.fill with | some x => 1 :: player x | none => List.replicate 12 0)
            ++ [r.duration / 256, r.duration, flag r.durationClamped]
          let armed : Part := popped.modSlot n (fun x => { x with state := .armed, arm := some r, run := .fresh })
          let answer : Answer :=
            { result := .accepted, normalised := normalised, payload := armBytes c r }
          armBytes c r = items.map (BitVec.ofNat 8)
          ∧ marks = left ∧ exec (.eventArm off n.val) s = .next { s with part := armed.reply 0x53 off answer })
    ∧ ((s.part.slot n).state = .empty ∨ (s.part.slot n).state = .armed →
        exec (.eventArm off n.val) s = .next { s with part := s.part.reply 0x53 off .state })
    ∧ ((s.part.slot n).state = .active →
        exec (.eventArm off n.val) s = .next { s with part := s.part.reply 0x53 off .busy })

/-- What passing the arm validation makes of an event (R119, R126 to R128). The record in-point is the count of its
label, with no mark used, or the frame of the popped mark, whose deck and origin are kept. Each source entry, and the
fill where the key is present and its fill deck is no background deck, has the deck of its entry and the count of its
label as in-point, and each cue point lies the preroll before its in-point; so the arm results name every deck of the
event. An event of fixed length ends its length after the record in-point within the day, and starts its transition
inside it. The effective duration of a MIX or WIPE of fixed length is the duration, clamped to what the length leaves,
the indication telling of a clamp that changed it; that of a CUT or an OPEN event is the duration as stored. The
normalised indication tells of a label that is skipped in the counting in use. -/
def Obligations.ArmedTimes : Prop :=
  ∀ (p : Part) (e : EventRecord) (left : List Mark) (r : ArmResults) (normalised : Bool),
    (∀ m ∈ p.tcu.marks, m.position < p.counting.day) →
    p.validateArm e = { marks := left, outcome := .ok (r, normalised) } →
    let c := p.counting
    let entry (x : ArmedDeck) (d : DeckNo) (l : StoredLabel) : Prop :=
      x.deck = d ∧ x.inPoint = labelCount c l.label ∧ x.cue + e.preroll = x.inPoint
    let skipped (l : StoredLabel) : Bool := isSkipped c l.label
    let own : Option EventKey := e.key.filter fun k =>
      k.fillDeck != e.source1.deck && !e.source2.any (fun x => x.deck == k.fillDeck)
    p.recorder = some r.recorder
    ∧ (∀ l : StoredLabel, e.recordIn = some l → r.recordIn = labelCount c l.label ∧ r.mark = none ∧ left = p.tcu.marks)
    ∧ (e.recordIn = none → ∃ (m : Mark) (rest : List Mark), p.tcu.marks = m :: rest ∧ left = rest
        ∧ r.recordIn = m.position / 2 ∧ r.mark = some (m.deck, m.origin))
    ∧ r.recorderCue + e.preroll = r.recordIn
    ∧ entry r.source1 e.source1.deck e.source1.play
    ∧ (e.source2 = none → r.source2 = none)
    ∧ (∀ y : EventSource, e.source2 = some y → ∃ x : ArmedDeck, r.source2 = some x ∧ entry x y.deck y.play)
    ∧ (own = none → r.fill = none)
    ∧ (∀ k : EventKey, own = some k → ∃ x : ArmedDeck, r.fill = some x ∧ entry x k.fillDeck k.fillIn)
    ∧ (∀ d : DeckNo, (e.hasBackground d || e.hasFill d) = true →
        ∃ x ∈ r.source1 :: (r.source2.toList ++ r.fill.toList), x.deck = d)
    ∧ (e.length = none → r.outPoint = none)
    ∧ (∀ len : Nat, e.length = some len →
        r.outPoint = some (r.recordIn + len) ∧ r.recordIn + len < c.dayFrames ∧ e.start < len)
    ∧ (e.transition = .cut ∨ e.length = none → r.duration = e.duration ∧ r.durationClamped = false)
    ∧ (∀ len : Nat, e.length = some len → e.transition ≠ .cut → r.duration = min e.duration (2 * (len - e.start))
        ∧ (r.durationClamped = true ↔ 2 * (len - e.start) < e.duration))
    ∧ normalised = (e.recordIn.any skipped || skipped e.source1.play || e.source2.any (fun x => skipped x.play)
        || own.any (fun k => skipped k.fillIn))

/-! ## Running an edit -/

/-- LIST_RUN from IDLE at an ARMED slot (R133, R134): the slot is ACTIVE under the cursor, the phase CUE, and every deck
of the event is wanted at its cue point with a resend, its pending direct command dropped and its cue record fresh: the
recorder at the recorder's cue point, each source deck at that of its entry, the fill deck at the fill's. With a
deck of the event LOCAL or ABSENT the command is accepted and the event fails at once, the lowest such deck giving the
reason. At a LOADED, DONE, FAILED or ABORTED slot the arm validation is made first: where it passes, the slot is started
as if it had been ARMED and the reply returns the arm results; where it does not, the command is refused as the arm is.
An EMPTY slot is refused with STATE, and outside IDLE every slot with BUSY. -/
def Obligations.ListStarted : Prop :=
  ∀ (s : State) (off : Nat) (n : SlotNo),
    let run := exec (.listRun off n.val) s
    (s.part.eds.phase ≠ .idle → run = .next { s with part := s.part.reply 0x58 off .busy })
    ∧ (s.part.eds.phase = .idle → (s.part.slot n).state = .empty → run = .next { s with part := s.part.reply 0x58 off .state })
    ∧ (s.part.eds.phase = .idle → (s.part.slot n).state ∈ [SlotState.loaded, .done, .failed, .aborted] →
        ∀ e : EventRecord, (s.part.slot n).event = some e → ∀ marks : List Mark,
        let popped : Part := { s.part with tcu := { s.part.tcu with marks := marks } }
        (∀ a : Answer, s.part.validateArm e = { marks := marks, outcome := .error a } →
          let refusal : Answer := { a with notRestored := decide (marks.length < s.part.tcu.marks.length) }
          run = .next { s with part := popped.reply 0x58 off refusal })
        ∧ ∀ (r : ArmResults) (normalised : Bool),
            s.part.validateArm e = { marks := marks, outcome := .ok (r, normalised) } →
            let armed : Part := popped.modSlot n (fun x => { x with state := .armed, arm := some r, run := .fresh })
            let answer : Answer := { result := .accepted, normalised := normalised, payload := armBytes s.part.counting r }
            ∃ p : Part, exec (.listRun off n.val) { s with part := armed } = .next { s with part := p.reply 0x58 off .accepted }
              ∧ run = .next { s with part := p.reply 0x58 off answer })
    ∧ ∀ (e : EventRecord) (a : ArmResults), s.part.eds.phase = .idle →
      s.part.slot n = { s.part.slot n with state := .armed, event := some e, arm := some a } →
      let held (d : DeckNo) : Bool := (s.part.deck d).role == .recorder || e.hasBackground d || e.hasFill d
      let away (d : DeckNo) : Bool := (s.part.deck d).line == .inLocal || (s.part.deck d).line == .absent
      (∀ d : DeckNo, held d = true → away d = true → (∀ x : DeckNo, x < d → held x = true → away x = false) →
        ∃ p : Part, run = .next { s with part := p.reply 0x58 off .accepted }
          ∧ p.slot n = { s.part.slot n with state := .failed, run := { (s.part.slot n).run with
              reason := if (s.part.deck d).line = .inLocal then .deckLocal else .deckLost } }
          ∧ p.eds.phase = .idle ∧ p.eds.active = none ∧ p.eds.cursor = n
          ∧ (∀ m : SlotNo, (p.slot m).state ≠ .armed) ∧ p.pku = { s.part.pku with
              notices := s.part.pku.notices ||| 98304#18 })
      ∧ ((∀ d : DeckNo, held d = true → away d = false) →
        ∃ p : Part, run = .next { s with part := p.reply 0x58 off .accepted }
          ∧ p.slot n = { s.part.slot n with state := .active } ∧ (∀ m : SlotNo, m ≠ n → p.slot m = s.part.slot m)
          ∧ p.eds.active = some n ∧ p.eds.cursor = n ∧ p.eds.phase = .cue ∧ p.eds.stopRequest = false
          ∧ p.eds.progress = 0 ∧ p.eds.outPoint = a.outPoint ∧ p.eds.guardRunning = false
          ∧ (let cued (d : DeckNo) (point : Nat) : Prop :=
                p.deck d = { s.part.deck d with want := .cueTo point, sent := .unknown, direct := none }
                ∧ p.eds.cues.get d = some { state := .waiting, misses := 0, timer :=
                    (s.part.deck d).params.timeout * (if s.part.rtu.std = .sys30 then 60 else 50) }
              let plays (d : DeckNo) : Bool := held d && (s.part.deck d).role != .recorder
              (∀ d : DeckNo, (s.part.deck d).role = .recorder → cued d a.recorderCue)
              ∧ (plays a.source1.deck = true → cued a.source1.deck a.source1.cue)
              ∧ (∀ x : ArmedDeck, a.source2 = some x → plays x.deck = true → x.deck ≠ a.source1.deck → cued x.deck x.cue)
              ∧ (∀ x : ArmedDeck, a.fill = some x → plays x.deck = true → x.deck ≠ a.source1.deck →
                  (∀ y : ArmedDeck, a.source2 = some y → x.deck ≠ y.deck) → cued x.deck x.cue))
          ∧ (∀ d : DeckNo, held d = false → p.deck d = s.part.deck d)
          ∧ p.pku = s.part.pku ∧ p.tcu = s.part.tcu ∧ p.mep = s.part.mep ∧ p.rtu = s.part.rtu)

/-- LIST_STOP sets the stop request outside IDLE; RELEASE sets the latch, and in HOLD under LOCKED passes the engine to
ROLL. The entry to ROLL fixes the roll field, two fields and the largest play lead of the event's decks on; it claims
the preload, a running take completed first and the host set held, and writes it: the inputs of the two entries' decks
as backgrounds, the event's transition, pattern, reverse and softness, level 0, the key off, and where the event has a
key its fill and parameters (R139, R159, R171; a deck without input, which no armed event has, is log entry 24,
DEDUCED). END_OPEN sets an OPEN event's out-point and withdraws record of an INSERT, and is refused with STATE in every
other case; GUARD_LIMIT stores its limit (R138, R144, R148, R149). -/
def Obligations.RunCommands : Prop :=
  ∀ (s : State) (off limit : Nat),
    let eds := s.part.eds
    (eds.phase ≠ .idle → exec (.listStop off) s
      = .next { s with part := (s.part.modEds (fun e => { e with stopRequest := true })).reply 0x59 off .accepted })
    ∧ (eds.phase = .idle → exec (.listStop off) s = .next { s with part := s.part.reply 0x59 off .state })
    ∧ (eds.phase ≠ .hold ∨ s.part.rtu.lock ≠ .locked → exec (.release off) s
      = .next { s with part := (s.part.modEds (fun e => { e with latch := true })).reply 0x5B off .accepted })
    ∧ (∀ (x : EventRecord) (pat : Fin 16), eds.phase = .hold → s.part.rtu.lock = .locked → s.part.activeEvent = some x →
        x.pattern = pat.val →
        let src (d : DeckNo) : Source := match (s.part.deck d).input with
          | some .a => .a
          | some .b => .b
          | some .c => .c
          | none => .black
        let m := s.part.mep
        let base : Mep := if m.owner = .auto
          then { m with take := none, preload := { m.preload with bg1 := m.preload.bg2, level := 0 } } else m
        let plain : ParamSet := { base.preload with
          bg1 := src x.source1.deck
          bg2 := match x.source2 with
            | some y => src y.deck
            | none => src x.source1.deck
          transition := x.transition, pattern := pat, reverse := x.reverse, softness := x.softness, level := 0, keyOn := false }
        let rolled : ParamSet := match x.key with
          | none => plain
          | some k => { plain with
              fill := src k.fillDeck, keyInput := k.keyInput, clip := k.clip, gain := k.gain, invert := k.invert }
        let lead (d : DeckNo) : Nat := (s.part.deck d).params.playLead
        ∃ p : Part, exec (.release off) s = .next { s with part := p.reply 0x5B off .accepted }
          ∧ p = { s.part with eds := p.eds, mep := p.mep }
          ∧ p.mep = { base with owner := .eds, held := p.mep.held, preload := rolled }
          ∧ ({ p.mep.held with level := 0 } : ParamSet) = { base.preload with level := 0 }
          ∧ ∃ d : DeckNo, s.part.inActiveEvent d = true ∧ (∀ y : DeckNo, s.part.inActiveEvent y = true → lead y ≤ lead d)
              ∧ p.eds = { eds with
                  phase := .roll, latch := false, holdWaiting := false, progress := 0, cues := Table.replicate 4 none
                  rollField := (s.part.rtu.fieldCount + 2 + lead d) % 2 ^ 24 })
    ∧ (∀ (d : DeckNo) (e : EventRecord), eds.phase = .record → eds.outPoint = none →
        s.part.activeEvent = some e → e.length = none → s.part.recorder = some d →
        let k := s.part.deck d
        let point : Nat := (k.position.position / 2 + k.params.recordLead) % s.part.counting.dayFrames
        let marked : Part := s.part.modEds (fun x => { x with outPoint := some point })
        let ended : Part := if e.kind = .insert then marked.modDeck d (fun y => { y with wantRecord := false }) else marked
        exec (.endOpen off) s = .next { s with part := ended.reply 0x5C off .accepted })
    ∧ (¬ (eds.phase = .record ∧ eds.outPoint = none ∧ ∃ e, s.part.activeEvent = some e ∧ e.length = none) →
        exec (.endOpen off) s = .next { s with part := s.part.reply 0x5C off .state })
    ∧ (limit ≤ 60 → exec (.guardLimit off limit) s
      = .next { s with part := (s.part.modEds (fun e => { e with guardLimit := limit })).reply 0x5D off .accepted })
    ∧ (60 < limit →
      let answer : Answer := { result := .clamped, clamped := [1] }
      exec (.guardLimit off limit) s
        = .next { s with part := (s.part.modEds (fun e => { e with guardLimit := 60 })).reply 0x5D off answer })

/-- ABORT outside IDLE, in every phase (R147, R148): the active slot becomes ABORTED with HOST_ABORT, the engine stands in
IDLE with the cursor where it was, LIST_END is set and EVENT_FAILED is not, record OFF is wanted of the recorder and STILL
of every deck of the event, each chasing deck stops its chase with the wanted speed 256 (R107), and the preload goes back
to the host where the EDS holds it. Everything else stays as it is: the other slots, an ARMED one among them, every other
item of each deck and port, the guard limit, the marks, the inputs, the reference and the console. In IDLE it is refused
with STATE. -/
def Obligations.EventAborted : Prop :=
  ∀ (s : State) (off : Nat),
    let chases (d : DeckNo) : Prop := (s.part.deck d).chase.state ≠ .off
    (∀ n : SlotNo, s.part.eds.active = some n → s.part.eds.phase ≠ .idle →
      ∃ p : Part, exec (.abort off) s = .next { s with part := p.reply 0x5A off .accepted }
        ∧ p.slot n = { s.part.slot n with state := .aborted, run := { (s.part.slot n).run with reason := .hostAbort } }
        ∧ (∀ m : SlotNo, m ≠ n → p.slot m = s.part.slot m)
        ∧ p.eds = { s.part.eds with
            slots := p.eds.slots, phase := .idle, active := none, stopRequest := false, latch := false
            holdWaiting := false, guardCount := 0, guardRunning := false, cues := Table.replicate 4 none }
        ∧ p.pku = { s.part.pku with notices := s.part.pku.notices ||| 65536#18 }
        ∧ (∀ d : DeckNo,
            p.deck d = { s.part.deck d with
              want := if s.part.inActiveEvent d then .still else (s.part.deck d).want
              wantRecord := if s.part.recorder = some d then false else (s.part.deck d).wantRecord
              wantSpeed := if chases d then 256 else (s.part.deck d).wantSpeed
              chase := if chases d then { state := .off, error := 0, lockCount := 0, speed := 256 } else (s.part.deck d).chase }
            ∧ p.port d = { s.part.port d with
                directHold := if s.part.inActiveEvent d then false else (s.part.port d).directHold }
            ∧ p.chu.own.get d = { s.part.chu.own.get d with
                pending := if chases d then false else (s.part.chu.own.get d).pending })
        ∧ p.chu = { s.part.chu with syncWatch := false, own := p.chu.own }
        ∧ p.mep = (if s.part.mep.owner = .eds
            then { s.part.mep with preload := { s.part.mep.held with level := 0 }, owner := .host } else s.part.mep)
        ∧ p.tcu = s.part.tcu ∧ p.rtu = s.part.rtu ∧ p.sius = s.part.sius ∧ p.gtu = s.part.gtu)
    ∧ (s.part.eds.phase = .idle → exec (.abort off) s = .next { s with part := s.part.reply 0x5A off .state })

/-- A cue timer that has run out fails the event with CUE_TIMEOUT: in CUE, with the timer of a deck that has not reached
cue at 0 (R136). A guard whose count has reached the limit trips and fails it with REF_LOST (R149). The failure is that of
R147: the slot FAILED, EVENT_FAILED and LIST_END set, no slot ARMED, the engine in IDLE with the cursor where it was. -/
def Obligations.EventFails : Prop :=
  ∀ (s : State) (n : SlotNo) (d : DeckNo) (c : Instr) (why : Reason), s.part.eds.active = some n →
    (c = .cueTimeout d ∧ why = .cueTimeout ∧ s.part.eds.phase = .cue
        ∧ ∃ x, s.part.eds.cues.get d = some x ∧ x.state ≠ .reached ∧ x.timer = 0)
      ∨ (c = .guardTrip ∧ why = .refLost ∧ s.part.eds.guardRunning = true
          ∧ s.part.eds.guardLimit ≤ s.part.eds.guardCount) →
    ∃ p : Part, exec c s = .next { s with part := p }
      ∧ p.slot n = { s.part.slot n with state := .failed, run := { (s.part.slot n).run with reason := why } }
      ∧ (∀ m : SlotNo, (p.slot m).state ≠ .armed ∧ (p.slot m).event = (s.part.slot m).event)
      ∧ p.noticeSet .eventFailed = true ∧ p.noticeSet .listEnd = true
      ∧ (c = .guardTrip → p.noticeSet .guardTrip = true)
      ∧ p.eds.phase = .idle ∧ p.eds.active = none ∧ p.eds.cursor = s.part.eds.cursor
      ∧ (∀ x : DeckNo, (p.deck x).chase.state = .off ∧ (p.deck x).role = (s.part.deck x).role)
      ∧ p.tcu = s.part.tcu ∧ p.rtu = s.part.rtu

/-- In CUE the EDS judges a deck's cue at each good reply (R135): a DONE to the CUE_TO of its cue point makes a waiting
cue taken; a taken one is judged where the deck reports STILL with a valid position: the cue point is that of the arm
results for the recorder, for the source deck or for the fill deck: within the tolerance it is reached, outside it is
missed, which re-cues once and then fails the event with CUE_MISS. When the last deck of the event has reached cue under
LOCKED, the engine leaves CUE: to ROLL, or to HOLD where the event asks for it, unless a release is latched (R137,
R138). In ROLL a deck of the event whose PLAY falls due, in the field its play lead before the roll field, is wanted
PLAY, and a player starts its chase in PULL_IN (R106, R140). A postroll count that stands at 0 ends the event as DONE
with EVENT_DONE; with a stop request the list ends in IDLE. Without one the cursor passes the EMPTY slots: past slot 63
the list ends with the cursor there; an ARMED slot, and one that can be armed, is started with the latch kept, or fails
at once where a deck of it is away; one that cannot be armed stays as it was, the list ends on it, and a mark popped is
spent (R134, R145). -/
def Obligations.RollAndPostroll : Prop :=
  (∀ (s : State) (d : DeckNo) (r : DeckReply) (x : Flight) (n : SlotNo) (e : EventRecord) (a : ArmResults) (point : Nat)
      (c : CueRecord),
    (s.part.port d).flight = some x → (s.part.port d).sending = [] → s.part.eds.phase = .cue →
    s.part.eds.active = some n → (s.part.slot n).event = some e → (s.part.slot n).arm = some a →
    ((s.part.deck d).role = .recorder → point = a.recorderCue) →
    ((s.part.deck d).role ≠ .recorder → ((a.source1 :: (a.source2.toList ++ a.fill.toList)).find?
      (fun y => y.deck == d)).map ArmedDeck.cue = some point) →
    s.part.eds.cues.get d = some c → (s.part.deck d).line = .online → r.isLocal = false →
    ∃ p : Part, exec (.deckReplyGood d r) s = .next { s with part := p }
      ∧ (let k := p.deck d
        let answers : Prop := r.refused = false ∧ ∃ label, x.frame = .cueTo point label
        let taken : Prop := c.state = .taken ∨ (c.state = .waiting ∧ answers)
        let parked : Prop := r.transport = .still ∧ k.position.valid = true
        let days : Int := s.part.counting.dayFrames
        let gap : Int := ((k.position.position / 2 : Nat) : Int) - point
        let near : Prop := gap % days ≤ k.params.tolerance ∨ (-gap) % days ≤ k.params.tolerance
        let last : Prop := s.part.rtu.lock = .locked ∧ ∀ y : DeckNo, y ≠ d → s.part.inActiveEvent y = true →
          (s.part.eds.cues.get y).map CueRecord.state = some .reached
        let stays (cue : CueRecord) : Prop :=
          p.eds = { s.part.eds with cues := s.part.eds.cues.set d (some cue), slots := p.eds.slots }
        (¬ taken → p.eds = { s.part.eds with slots := p.eds.slots })
        ∧ (taken → ¬ parked → stays { c with state := .taken })
        ∧ (taken → parked → near → ¬ last → s.part.inActiveEvent d = true → stays { c with state := .reached })
        ∧ (taken → parked → near → last → s.part.inActiveEvent d = true →
            (e.hold = .noHold ∨ s.part.eds.latch = true → p.eds.phase = .roll ∧ p.eds.holdWaiting = false
              ∧ p.mep.owner = .eds ∧ p.mep.preload.level = 0
              ∧ p.eds.latch = (if e.hold = .noHold then s.part.eds.latch else false))
            ∧ (e.hold = .beforeRoll → s.part.eds.latch = false → p.eds.phase = .hold ∧ p.eds.holdWaiting = true
              ∧ p.noticeSet .holdWaiting = true ∧ p.mep = s.part.mep
              ∧ ∀ y : DeckNo, s.part.inActiveEvent y = true → (p.deck y).want = .still))
        ∧ (taken → parked → ¬ near → c.misses = 0 → k.want = .cueTo point ∧ k.sent = .unknown
            ∧ stays { c with state := .waiting, misses := 1 })
        ∧ (taken → parked → ¬ near → c.misses ≠ 0 → (p.slot n).state = .failed ∧ (p.slot n).run.reason = .cueMiss
            ∧ p.eds.phase = .idle ∧ p.noticeSet .eventFailed = true)))
  ∧ (∀ (s : State) (d : DeckNo), s.part.eds.phase = .roll → s.part.inActiveEvent d = true →
    (s.part.eds.rollField + 2 ^ 24 - (s.part.deck d).params.playLead) % 2 ^ 24 = s.part.rtu.fieldCount →
    ((s.part.deck d).role = .recorder → exec (.rollPlayDue d) s = .next { s with part := s.part.wantTransport d .play })
    ∧ (∀ (a : ArmResults) (frame : Nat), (s.part.deck d).role ≠ .recorder → s.part.activeArm = some a →
        ((a.source1 :: (a.source2.toList ++ a.fill.toList)).find? (fun y => y.deck == d)).map ArmedDeck.inPoint = some frame →
        ∃ p : Part, exec (.rollPlayDue d) s = .next { s with part := p }
          ∧ p.deck d = { s.part.deck d with
              want := .play, wantSpeed := 256, chase := { state := .pullIn, error := 0, lockCount := 0, speed := 256 } }
          ∧ p.chu.own.get d = { playerIn := 2 * frame, recorderIn := 2 * a.recordIn, pending := false }
          ∧ (∀ e : DeckNo, e ≠ d → p.deck e = s.part.deck e) ∧ p.eds = s.part.eds ∧ p.pku = s.part.pku))
  ∧ ∀ (s : State) (n : SlotNo), s.part.eds.phase = .postroll → s.part.eds.postroll = 0 → s.part.eds.active = some n →
    ∃ p : Part, exec .postrollEnd s = .next { s with part := p }
      ∧ (p.slot n).state = .done ∧ (p.slot n).run.reason = .noReason ∧ p.noticeSet .eventDone = true
      ∧ (s.part.eds.stopRequest = true → p.eds.phase = .idle ∧ p.eds.active = none ∧ p.noticeSet .listEnd = true
          ∧ (p.eds.cursor.val = n.val + 1 ∨ (n = 63 ∧ p.eds.cursor = 63)))
      ∧ (s.part.eds.stopRequest = false → (∀ j : SlotNo, n < j → (s.part.slot j).state = .empty) →
          p.eds.phase = .idle ∧ p.eds.active = none ∧ p.noticeSet .listEnd = true ∧ p.eds.cursor = 63)
      ∧ ∀ (k : SlotNo) (e : EventRecord), s.part.eds.stopRequest = false → n < k →
          (∀ j : SlotNo, n < j → j < k → (s.part.slot j).state = .empty) → (s.part.slot k).event = some e →
          let x := s.part.slot k
          let held (d : DeckNo) : Bool := (s.part.deck d).role == .recorder || e.hasBackground d || e.hasFill d
          let away (d : DeckNo) : Bool := (s.part.deck d).line == .inLocal || (s.part.deck d).line == .absent
          let starts (a : ArmResults) (run : RunResults) : Prop :=
            p.eds.cursor = k
            ∧ ((∀ d : DeckNo, held d = true → away d = false) →
                p.slot k = { x with state := .active, arm := some a, run := run } ∧ p.eds.active = some k
                ∧ p.eds.phase = .cue ∧ p.eds.latch = s.part.eds.latch ∧ p.eds.outPoint = a.outPoint ∧ p.eds.progress = 0
                ∧ p.noticeSet .listEnd = s.part.noticeSet .listEnd
                ∧ (let cued (d : DeckNo) (point : Nat) : Prop :=
                    (p.deck d).want = .cueTo point ∧ (p.deck d).sent = .unknown ∧ (p.deck d).direct = none
                  let plays (d : DeckNo) : Bool := held d && (s.part.deck d).role != .recorder
                  (∀ d : DeckNo, (s.part.deck d).role = .recorder → cued d a.recorderCue)
                  ∧ (plays a.source1.deck = true → cued a.source1.deck a.source1.cue)
                  ∧ (∀ y : ArmedDeck, a.source2 = some y → plays y.deck = true → y.deck ≠ a.source1.deck → cued y.deck y.cue)
                  ∧ (∀ y : ArmedDeck, a.fill = some y → plays y.deck = true → y.deck ≠ a.source1.deck →
                      (∀ z : ArmedDeck, a.source2 = some z → y.deck ≠ z.deck) → cued y.deck y.cue)))
            ∧ ((∃ d : DeckNo, held d = true ∧ away d = true) → (p.slot k).state = .failed ∧ p.eds.phase = .idle
                ∧ p.noticeSet .eventFailed = true ∧ p.noticeSet .listEnd = true)
          (∀ a, x.state = .armed → x.arm = some a → starts a x.run)
          ∧ (x.state ∈ [SlotState.loaded, .done, .failed, .aborted] →
              (∀ marks a normalised, s.part.validateArm e = { marks := marks, outcome := .ok (a, normalised) } →
                starts a .fresh ∧ p.tcu.marks = marks)
              ∧ ∀ marks a, s.part.validateArm e = { marks := marks, outcome := .error a } →
                  p.slot k = x ∧ p.tcu.marks = marks ∧ p.eds.cursor = k ∧ p.eds.phase = .idle ∧ p.eds.active = none
                  ∧ p.noticeSet .listEnd = true)

/-- Every step keeps the engine, the slots, the preload's owner and the chase in agreement (R107, R115, R117, R119,
R132, R138, R149, R158): one slot ACTIVE exactly outside IDLE, the EDS owner exactly in ROLL, RECORD and POSTROLL,
no chase before ROLL, the guard only in RECORD. Beside a sound deck table it keeps the promise of R141 too: record ON is
wanted only while an INSERT is ACTIVE in RECORD, and no longer once an OPEN one has its out-point (R144). -/
def Obligations.EngineStaysSound : Prop :=
  ∀ s t : State, s.part.engineSound = true → step s = .next t →
    t.part.engineSound = true
    ∧ (s.part.tableSound = true → s.part.recordSound = true → t.part.recordSound = true)

/-! ## Mix/effects -/

/-- The take of the active set (R155, R157): one copy of the preload, its owner and its pattern record, with each
input substituted exactly where it is not IN_WINDOW, by its policy. It hands on which inputs contribute to PGM: none
outside LOCKED and FREEWHEEL, and then each that is not substituted and stands in a background that is shown, or fills an
active key; and in a set that the EDS owns, an input in use that is substituted sets the substituted indication of the
active slot (R143, R172). The preload, the tables and every other slot stay. -/
def Obligations.ActiveSetTaken : Prop :=
  ∀ s : State,
    let m := s.part.mep.preload
    let own (i : Input) : Source := match i with
      | .a => .a
      | .b => .b
      | .c => .c
    let live : Prop := s.part.rtu.lock = .locked ∨ s.part.rtu.lock = .freewheel
    let there (i : Input) : Prop := (s.part.siu i).state = .inWindow
    let inUse (i : Input) : Prop := m.bg1 = own i ∨ m.bg2 = own i ∨ (m.keyOn = true ∧ (m.fill = own i ∨ m.keyInput = i))
    let full : Nat := if m.transition = .wipe then 4096 else 1024
    let reports : Prop := s.part.mep.owner = .eds ∧ ∃ i : Input, inUse i ∧ ¬ there i
    ∃ p : Part, exec .activeSetTake s = .next { s with part := p }
      ∧ p.mep.active.params = m ∧ p.mep.active.owner = s.part.mep.owner
      ∧ p.mep.active.pattern = s.part.mep.patterns.get m.pattern ∧ p.mep.active.std = s.part.rtu.std
      ∧ (∀ i : Input, p.mep.active.subst.get i.idx =
          if (s.part.siu i).state = .inWindow then none else some (s.part.siu i).policy)
      ∧ (p.mep.active.onAir = true ↔ live)
      ∧ (∀ i : Input, p.mep.contrib.get i.idx = true ↔ live ∧ there i
          ∧ ((m.bg1 = own i ∧ m.level < full) ∨ (m.bg2 = own i ∧ 0 < m.level) ∨ (m.fill = own i ∧ m.keyOn = true)))
      ∧ (∀ n : SlotNo,
          (reports → s.part.eds.active = some n →
            p.slot n = { s.part.slot n with run := { (s.part.slot n).run with substituted := true } })
          ∧ (¬ reports ∨ s.part.eds.active ≠ some n → p.slot n = s.part.slot n))
      ∧ p = { s.part with
          mep := { s.part.mep with active := p.mep.active, contrib := p.mep.contrib }
          eds := { s.part.eds with slots := p.eds.slots } }

/-- The host's mixer commands (R24, R158, R168 to R170): each writes its items of the preload, the tuning numbers
clamped, while the host owns it, and is refused with BUSY otherwise. -/
def Obligations.HostMixerCommands : Prop :=
  ∀ (s : State) (off : Nat) (b1 b2 pv fill : Source) (on inv rev : Bool) (key : Input) (clip gain duration soft : Nat)
    (kind : Transition) (pattern : Fin 16) (curve : Fin 4),
    let m := s.part.mep
    let xpt := Instr.xptSet off b1.code b2.code pv.code
    let keyer := Instr.keyParams off (switchCode on) fill.code (inputCode key) clip gain (switchCode inv)
    let auto := Instr.autoTake off kind.code duration pattern.val curve.val soft (switchCode rev)
    let crossed : Part := s.part.modMep (fun x => { x with
      preload := { x.preload with bg1 := b1, bg2 := b2, pvw := pv } })
    let keyed : Part := s.part.modMep (fun x => { x with
      preload := { x.preload with
        keyOn := on, fill := fill, keyInput := key, clip := clampTo 0 1023 clip, gain := clampTo 1 255 gain,
        invert := inv } })
    let begun : Take := { kind := kind, duration := clampTo 1 999 duration, curve := curve, count := 0 }
    let keyAnswer : Answer := Answer.taken [⟨4, 0, 1023, clip⟩, ⟨5, 1, 255, gain⟩]
    let takeAnswer : Answer := Answer.taken [⟨2, 1, 999, duration⟩, ⟨5, 0, 255, soft⟩]
    let started (level : Nat) : Part := s.part.modMep (fun x => { x with
      owner := .auto, take := some begun
      preload := { x.preload with
        transition := kind, pattern := pattern, reverse := rev, softness := clampTo 0 255 soft, level := level } })
    (m.owner = .host →
      exec xpt s = .next { s with part := crossed.reply 0x60 off .accepted }
      ∧ exec keyer s = .next { s with part := keyed.reply 0x61 off keyAnswer }
      ∧ ∃ level : Nat, exec auto s = .next { s with part := (started level).reply 0x62 off takeAnswer }
          ∧ (kind = .cut → level = 1024)
          ∧ (kind = .mix → level = ((m.curves.get curve).get 0 + 2) / 4)
          ∧ (kind = .wipe → level = (m.curves.get curve).get 0))
    ∧ (m.owner ≠ .host →
        exec xpt s = .next { s with part := s.part.reply 0x60 off .busy }
        ∧ exec keyer s = .next { s with part := s.part.reply 0x61 off .busy }
        ∧ exec auto s = .next { s with part := s.part.reply 0x62 off .busy })

/-- The auto-take (R171): at each field start with no event active, whatever order the work is asked for in, the counter
counts one; past its duration, which for a CUT is its first field, the take ends with background 2 as background 1,
level 0 and owner HOST, and before that the level of its progress is written. AUTO_TAKE_END ends a take whose counter has
passed its duration; that it changes nothing below it is the model's choice (log entry 5, DESIGN CHOICE). -/
def Obligations.AutoTakeAdvances : Prop :=
  ∀ (s : State) (x : Take) (pins : BitVec 4) (order : List FieldWork), s.part.mep.owner = .auto → s.part.mep.take = some x →
    let m := s.part.mep
    let last : Nat := if x.kind = .cut then 0 else x.duration
    let ended : Mep := { m with preload := { m.preload with bg1 := m.preload.bg2, level := 0 }, take := none, owner := .host }
    let p' := curveAt (m.curves.get x.curve) ((x.count + 1) * 4096 / x.duration)
    let counted : Mep := { m with
      take := some { x with count := x.count + 1 }
      preload := { m.preload with level := if x.kind = .wipe then p' else (p' + 2) / 4 } }
    (last < x.count → exec .autoTakeEnd s = .next { s with part := { s.part with mep := ended } })
    ∧ (x.count ≤ last → exec .autoTakeEnd s = .next s)
    ∧ (s.part.pku.fullPending = false → s.part.eds.phase = .idle → s.part.eds.active = none →
        ∃ p : Part, exec (.fieldStart pins order) s = .next { s with part := p }
          ∧ p.mep = if last ≤ x.count then ended else counted)

/-- PATTERN_LOAD and CURVE_LOAD, with the entry not in use, replace one entry of their table by the values given,
clamped, and nothing else; an entry in use is refused with BUSY; curve 0 cannot be loaded (R24, R166, R167). An entry is
in use where the record of the active slot names it, or a running auto-take has it. -/
def Obligations.TablesLoaded : Prop :=
  ∀ (s : State) (off cx cy : Nat) (pattern : Fin 16) (shape : Nat) (sh : Shape) (rev : Bool) (curve : Fin 4)
    (points : Table Nat 17), shapeOf shape = some sh →
    let m := s.part.mep
    let patternUsed : Prop := (∃ e, s.part.activeEvent = some e ∧ e.pattern = pattern.val)
      ∨ (m.owner = .auto ∧ m.preload.pattern = pattern)
    let curveUsed : Prop := (∃ e, s.part.activeEvent = some e ∧ e.curve = curve.val)
      ∨ (m.owner = .auto ∧ ∃ t, m.take = some t ∧ t.curve = curve)
    let loaded : Part := s.part.modMep (fun m => { m with
      patterns := m.patterns.set pattern { shape := sh, cellsX := clampTo 1 16 cx, cellsY := clampTo 1 16 cy, reverse := rev } })
    let patternAnswer : Answer := Answer.taken [⟨3, 1, 16, cx⟩, ⟨4, 1, 16, cy⟩]
    let curved : Part := s.part.modMep (fun m => { m with curves := m.curves.set curve (points.map (clampTo 0 4096)) })
    let curveAnswer : Answer := Answer.taken (points.cells.zipIdx.map (fun x => ⟨x.2 + 2, 0, 4096, x.1⟩))
    (¬ patternUsed → exec (.patternLoad off pattern.val shape cx cy (switchCode rev)) s
      = .next { s with part := loaded.reply 0x63 off patternAnswer })
    ∧ (patternUsed → exec (.patternLoad off pattern.val shape cx cy (switchCode rev)) s
      = .next { s with part := s.part.reply 0x63 off .busy })
    ∧ (curve ≠ 0 → ¬ curveUsed → exec (.curveLoad off curve.val points.cells) s
      = .next { s with part := curved.reply 0x64 off curveAnswer })
    ∧ (curve ≠ 0 → curveUsed → exec (.curveLoad off curve.val points.cells) s
      = .next { s with part := s.part.reply 0x64 off .busy })
    ∧ exec (.curveLoad off 0 points.cells) s = .next { s with part := s.part.reply 0x64 off (.badValue 1) }

/-- The pictures on the active lines. PGM is the mix of the two backgrounds by the level or the wipe coefficient of the
sample's pattern value, with the fill laid over it by the key coefficient while the key is on; a chroma sample takes the
coefficients of the even luma sample; PVW is background 2 while the EDS owned the preload at the take, and the PVW
source otherwise (R160 to R164). Both are made from what the SIUs supply for that line: what an SIU found at its
beginning, clamped into 4 to 1019, or black where it found none (R47, R48; that the lines stored under another standard
are clamped too is log entry 45, DEDUCED). Every sample that the MEP composes from legal sources and a legal level lies
in 4 to 1019, as every sample supplied does, and every mix and key coefficient in 0 to 1024 (R161). -/
def Obligations.SamplesStayLegal : Prop :=
  (∀ (a : ActiveSet) (lines : Table VideoLine 3) (c : Component) (x line : Nat),
    let q := a.params
    let height : Nat := if a.std = .sys30 then 486 else 576
    let sx (x : Nat) : Nat := x * a.pattern.cellsX % 720 * 4096 / 720
    let sy : Nat := line * a.pattern.cellsY % height * 4096 / height
    let far (v : Nat) : Nat := (2 * (v : Int) - 4095).natAbs
    let shape (x : Nat) : Nat := match a.pattern.shape with
      | .hEdge => sx x
      | .vEdge => sy
      | .box => max (far (sx x)) (far sy)
      | .diamond => (far (sx x) + far sy) / 2
      | .diag => (sx x + sy) / 2
    let value (x : Nat) : Nat := if a.pattern.reverse = q.reverse then shape x else 4095 - shape x
    let h : Int := 16 * q.softness
    let d (x : Nat) : Int := Int.tdiv (q.level * (4096 + 2 * h)) 4096 - h - value x
    let k (x : Nat) : Nat :=
      if q.transition ≠ .wipe then q.level
      else if h = 0 then (if 0 < d x then 1024 else 0)
      else (max 0 (min 1024 (512 + Int.tdiv (d x * 512) h))).toNat
    let even : Nat := match c with
      | .y => x
      | _ => x / 2 * 2
    let mix (v1 v2 k : Nat) : Nat := (v1 * (1024 - k) + v2 * k + 512) / 1024
    let background : Nat := mix (a.offers lines q.bg1 c x) (a.offers lines q.bg2 c x) (k even)
    let above : Nat :=
      (max 0 (min 1024 (Int.tdiv (((a.inputOffers lines q.keyInput .y even : Int) - q.clip) * q.gain) 16))).toNat
    let kk : Nat := if q.invert then 1024 - above else above
    a.program lines c x line = (if q.keyOn then mix background (a.offers lines q.fill c x) kk else background)
    ∧ a.preview lines c x = a.offers lines (if a.owner = .eds then q.bg2 else q.pvw) c x)
  ∧ (∀ (a : ActiveSet) (lines : Table VideoLine 3) (c : Component) (x line : Nat),
    (∀ i, (∀ v ∈ (lines.get i).luma, 4 ≤ v ∧ v ≤ 1019) ∧ (∀ v ∈ (lines.get i).cb, 4 ≤ v ∧ v ≤ 1019)
      ∧ (∀ v ∈ (lines.get i).cr, 4 ≤ v ∧ v ≤ 1019)) →
    a.params.level ≤ (if a.params.transition = .wipe then 4096 else 1024) →
    a.coefficient x line ≤ 1024
    ∧ (∀ yk clip gain : Nat, ∀ inv : Bool, keyCoefficient yk clip gain inv ≤ 1024)
    ∧ 4 ≤ a.program lines c x line ∧ a.program lines c x line ≤ 1019
    ∧ 4 ≤ a.preview lines c x ∧ a.preview lines c x ≤ 1019)
  ∧ ∀ (p : Part) (f : OutputField) (n : Nat) (i : Input) (l : LookUp) (c : Component) (x : Nat),
    let supplied := p.suppliedLines f n
    let clamp (v : Nat) : Nat := max 4 (min 1019 v)
    let first : Nat := Config.firstActive f.std f.id
    (∀ v, v ∈ (supplied.get i.idx).luma ∨ v ∈ (supplied.get i.idx).cb ∨ v ∈ (supplied.get i.idx).cr → 4 ≤ v ∧ v ≤ 1019)
    ∧ ((p.siu i).lookedUp = some l → l.field = f.count → l.line = n →
        supplied.get i.idx = match l.found with
          | some y => { luma := y.luma.map clamp, cb := y.cb.map clamp, cr := y.cr.map clamp }
          | none => { luma := List.replicate 720 64, cb := List.replicate 360 512, cr := List.replicate 360 512 })
    ∧ (first ≤ n → n ≤ Config.fieldLines f.std f.id → p.mep.active.onAir = true →
        p.pgmLine f n c x = p.mep.active.program supplied c x (2 * (n - first) + if f.id = .one then 0 else 1)
        ∧ p.pvwLine f n c x = p.mep.active.preview supplied c x)

/-- At T = 0 every sample has coefficient 0 and at T = 4096 every sample has 1024, at every softness; and the mixing
formula gives its first source exactly at 0 and its second at 1024 (R160, R164). -/
def Obligations.WipeEndsAreWhole : Prop :=
  (∀ softness value : Nat, value ≤ 4095 →
    wipeCoefficient 0 softness value = 0 ∧ wipeCoefficient 4096 softness value = 1024)
  ∧ ∀ v1 v2 : Nat, mixed v1 v2 0 = v1 ∧ mixed v1 v2 1024 = v2

/-- Every step keeps the mixer sound beside a sound engine (R156, R158, R165): a take exactly while AUTO owns, level
0 while the host owns, curve points in range and curve 0 linear. -/
def Obligations.MixerStaysSound : Prop :=
  ∀ s t : State, s.part.engineSound = true → s.part.mixerSound = true → step s = .next t → t.part.mixerSound = true

/-! ## Console -/

/-- GPI_CONFIG stores its four settings, the debounce clamped, takes the last sample as the accepted level and
discards the run; TALLY_CONFIG stores the role with the reply ACCEPTED, and the output is lit exactly while that role's
condition holds, the other outputs staying as they are (R175 to R177). ALERT: a notice is both set and enabled (R32);
ON_AIR: the recorder's last-sent record level is ON; EDIT_ACTIVE: a slot is ACTIVE; SOURCE_A to SOURCE_C: that input
contributes to the active PGM set; NONE: never. Nothing else changes. -/
def Obligations.ConsoleConfigured : Prop :=
  ∀ (s : State) (off role edge bounce tally : Nat) (n : Fin 4) (d : DeckNo) (r : GpiRole) (e : Edge) (tr : TallyRole),
    gpiRoleOf role = some r → edgeOf edge = some e → tallyRoleOf tally = some tr →
    let answer : Answer := Answer.taken [⟨4, 1, 8, bounce⟩]
    let told : Part := { s.part with gtu := { s.part.gtu with tallies := s.part.gtu.tallies.set n tr } }
    let condition : Prop := match tr with
      | .noRole => False
      | .alert => ∃ x : Notice, s.part.noticeSet x = true ∧ s.part.pku.mask.getLsbD x.bit = true
      | .onAir => ∃ x : DeckNo, s.part.recorder = some x ∧ (s.part.deck x).sentRecord = some true
      | .editActive => ∃ x : SlotNo, s.part.eds.active = some x
      | .sourceA => s.part.mep.contrib.get 0 = true
      | .sourceB => s.part.mep.contrib.get 1 = true
      | .sourceC => s.part.mep.contrib.get 2 = true
    exec (.gpiConfig off n.val role edge bounce d.val) s
      = .next { s with part := (s.part.modGtu (fun u => { u with gpis := u.gpis.modify n (fun g =>
          { role := r, edge := e, debounce := clampTo 1 8 bounce, markDeck := d, lastSample := g.lastSample
            accepted := g.lastSample, run := 0 }) })).reply 0x70 off answer }
    ∧ exec (.tallyConfig off n.val tally) s = .next { s with part := { told with
        pku := { s.part.pku with building := s.part.pku.building ++ [replyOf 0x71 off { result := .accepted }] } } }
    ∧ (told.tallyLit n = true ↔ condition)
    ∧ (∀ t : Fin 4, t ≠ n → told.tallyLit t = s.part.tallyLit t)
    ∧ (∀ k : Nat, 7 ≤ k → exec (.tallyConfig off n.val k) s
        = .next { s with part := s.part.reply 0x71 off (.badValue 2) })
    ∧ (∀ k x : Nat, 4 ≤ k → exec (.tallyConfig off k x) s
        = .next { s with part := s.part.reply 0x71 off (.badValue 1) })

/-- At a field start each GPI input takes its sample and counts its run; at D the level is accepted (R173), and in IDLE a
matching edge of the one input with a role acts: a mark of the record as it has advanced, or MARK_REFUSED; a release
latched (R138, R174). GPI_ACCEPTED_EDGE does the same with a run count that stands at D: a mark is taken or refused; a
trigger gives an OPEN event in RECORD its out-point (R144), passes HOLD to ROLL under LOCKED, and latches a release
otherwise; an all-stop aborts the active event as ALL_STOP, and STOP, and of the recorder record OFF, are wanted of every
deck with a role (R148, R103). Without role or match nothing else changes. That GPI_ACCEPTED_EDGE with a run count below D
changes nothing is the model's choice (log entry 5, DESIGN CHOICE). -/
def Obligations.EdgeAccepted : Prop :=
  (∀ (s : State) (pins : BitVec 4) (order : List FieldWork), s.part.pku.fullPending = false →
    let level (n : Fin 4) : Bool := pins.getLsbD n.val
    let g (n : Fin 4) : Gpi := s.part.gtu.gpis.get n
    let run (n : Fin 4) : Nat := if level n = (g n).accepted then 0
      else if level n = (g n).lastSample ∨ (g n).run = 0 then (g n).run + 1 else 1
    let due (n : Fin 4) : Prop := level n ≠ (g n).accepted ∧ (g n).debounce ≤ run n
    let acts (n : Fin 4) : Prop := due n ∧ ((g n).edge = .rising ↔ level n = true)
      ∧ s.part.eds.phase = .idle ∧ s.part.eds.active = none ∧ s.part.eds.guardRunning = false
      ∧ ∀ j : Fin 4, j ≠ n → (g j).role = .noRole
    ∃ p : Part, exec (.fieldStart pins order) s = .next { s with part := p }
      ∧ p.gtu.pins = pins ∧ p.gtu.tallies = s.part.gtu.tallies
      ∧ ∀ n : Fin 4,
          (due n → p.gtu.gpis.get n = { g n with lastSample := level n, accepted := level n, run := 0 })
          ∧ (¬ due n → p.gtu.gpis.get n = { g n with lastSample := level n, run := run n })
          ∧ (acts n → (g n).role = .trigger → p.eds = { s.part.eds with latch := true })
          ∧ (acts n → (g n).role = .mark →
              let k := (p.deck (g n).markDeck).position
              (k.valid = true → p.tcu.marks =
                ({ position := k.position, deck := (g n).markDeck, origin := .g n } :: s.part.tcu.marks).take 8
                ∧ p.noticeSet .markTaken = true)
              ∧ (k.valid = false → p.tcu.marks = s.part.tcu.marks ∧ p.noticeSet .markRefused = true)))
  ∧ ∀ (s : State) (n : Fin 4),
    let g := s.part.gtu.gpis.get n
    g.lastSample ≠ g.accepted → g.debounce ≤ g.run →
    let accepted : Part := s.part.modGtu (fun u => { u with gpis := u.gpis.set n { g with accepted := g.lastSample, run := 0 } })
    let hit : Bool := (g.edge == .rising) == g.lastSample
    let noticed (mask : BitVec 18) : Pku := { s.part.pku with notices := s.part.pku.notices ||| mask }
    let position := (s.part.deck g.markDeck).position
    (hit = false ∨ g.role = .noRole → exec (.gpiAcceptedEdge n) s = .next { s with part := accepted })
    ∧ (hit = true → g.role = .mark → position.valid = false →
        exec (.gpiAcceptedEdge n) s = .next { s with part := { accepted with pku := noticed 4096#18 } })
    ∧ (hit = true → g.role = .mark → position.valid = true →
        let mark : Mark := { position := position.position, deck := g.markDeck, origin := .g n }
        exec (.gpiAcceptedEdge n) s = .next { s with part := { accepted with
          tcu := { s.part.tcu with marks := (mark :: s.part.tcu.marks).take 8 }
          pku := noticed (if s.part.tcu.marks.length < 8 then 1024#18 else 3072#18) } })
    ∧ (hit = true → g.role = .trigger → s.part.openEndable = false → s.part.eds.phase ≠ .hold ∨ s.part.rtu.lock ≠ .locked →
        exec (.gpiAcceptedEdge n) s = .next { s with part := accepted.modEds (fun e => { e with latch := true }) })
    ∧ (hit = true → g.role = .trigger → s.part.eds.phase = .hold → s.part.rtu.lock = .locked → s.part.activeEvent ≠ none →
        ∃ p : Part, exec (.gpiAcceptedEdge n) s = .next { s with part := p } ∧ p.gtu = accepted.gtu ∧ p.eds.phase = .roll
          ∧ p.eds.latch = false ∧ p.eds.holdWaiting = false ∧ p.mep.owner = .eds ∧ p.mep.preload.level = 0)
    ∧ (∀ (d : DeckNo) (e : EventRecord), hit = true → g.role = .trigger → s.part.eds.phase = .record →
        s.part.eds.outPoint = none → s.part.activeEvent = some e → e.length = none → s.part.recorder = some d →
        let k := s.part.deck d
        let point : Nat := (k.position.position / 2 + k.params.recordLead) % s.part.counting.dayFrames
        let marked : Part := accepted.modEds (fun x => { x with outPoint := some point })
        let ended : Part := if e.kind = .insert then marked.modDeck d (fun y => { y with wantRecord := false }) else marked
        exec (.gpiAcceptedEdge n) s = .next { s with part := ended })
    ∧ (hit = true → g.role = .allStop →
        ∃ p : Part, exec (.gpiAcceptedEdge n) s = .next { s with part := p } ∧ p.gtu = accepted.gtu
          ∧ (s.part.eds.active = none → p.eds = s.part.eds)
          ∧ (∀ k : SlotNo, s.part.eds.active = some k →
              p.slot k = { s.part.slot k with state := .aborted, run := { (s.part.slot k).run with reason := .allStop } }
              ∧ p.eds.phase = .idle ∧ p.eds.active = none ∧ (∀ d : DeckNo, (p.deck d).chase.state = .off)
              ∧ p.pku = noticed 65536#18)
          ∧ (∀ d : DeckNo, (s.part.deck d).role ≠ .noRole → (p.deck d).want = .stop ∧ (p.deck d).direct = none
              ∧ ((s.part.deck d).role = .recorder → (p.deck d).wantRecord = false))
          ∧ (s.part.eds.active = none → ∀ d : DeckNo, (s.part.deck d).role = .noRole → p.deck d = s.part.deck d))
  ∧ ∀ (s : State) (n : Fin 4), (s.part.gtu.gpis.get n).lastSample = (s.part.gtu.gpis.get n).accepted
      ∨ (s.part.gtu.gpis.get n).run < (s.part.gtu.gpis.get n).debounce → exec (.gpiAcceptedEdge n) s = .next s

/-! ## The record span -/

/-- At a field start the EDS acts on the advance of the recorder's valid record, at the position it advances to, with
nothing else at work on the engine. In ROLL the first one at the decision point, the record lead before the in-point,
takes the record-on decision: the first of its four tests to fail fails the event; otherwise the engine is in RECORD
with the sync watch on, and for an INSERT record ON is wanted of the recorder with the event's tracks (R141). In RECORD
and POSTROLL each one writes the preload: the level of the transition's progress, which never falls back, and the key on
between its offsets (R143). In RECORD the first one at the record lead before the out-point withdraws record for an
INSERT, and the first one at the out-point enters POSTROLL with its count, or ends the event where that is 0 (R144,
R145). That an out-point reached has record withdrawn with it is the model's reading (log entry 30, DEDUCED), and so are
the preload written and the points tested at the advance of the decision itself (log entry 12, DEDUCED) and the level
that follows the progress held (log entry 13, DEDUCED). -/
def Obligations.RecorderAdvanceRunsTheEvent : Prop :=
  ∀ (s : State) (pins : BitVec 4) (order : List FieldWork) (n : SlotNo) (e : EventRecord) (a : ArmResults) (r : DeckNo),
    let eds := s.part.eds
    let k := s.part.deck r
    let c := s.part.counting
    let lead : Int := k.params.recordLead
    let pos : Int := (k.position.advanced c.day k.transport k.speed).position
    let at_ (point : Int) : Prop := 0 ≤ c.sym (pos - point)
    s.part.pku.fullPending = false → eds.active = some n → (s.part.slot n).event = some e → (s.part.slot n).arm = some a →
    (∀ d : DeckNo, (s.part.deck d).role = .recorder ↔ d = r) → k.position.valid = true → k.transport ≠ .fastFwd →
    k.transport ≠ .rewind → s.part.mep.owner = .eds → eds.guardRunning = false →
    (∀ g : Fin 4, (s.part.gtu.gpis.get g).role = .noRole) →
    (∀ d : DeckNo, (s.part.deck d).position.age < 30 ∧ (s.part.chu.own.get d).pending = false
      ∧ (eds.rollField + 2 ^ 24 - (s.part.deck d).params.playLead) % 2 ^ 24 ≠ (s.part.rtu.fieldCount + 1) % 2 ^ 24) →
    let decides : Prop := at_ (2 * ((a.recordIn : Int) - lead))
    let fault : Option Reason :=
      if s.part.rtu.lock ≠ .locked then some .refLost
      else if k.line = .inLocal then some .deckLocal
      else if k.line ≠ .online then some .deckLost
      else if e.kind = .insert ∧ k.inhibit = true then some .recordRefused
      else if ∃ d : DeckNo, d ≠ r ∧ s.part.inActiveEvent d = true ∧ (s.part.deck d).chase.state ≠ .locked then some .notLocked
      else none
    let off : Prop := ∃ o, eds.outPoint = some o ∧ (at_ (2 * ((o : Int) - lead)) ∨ at_ (2 * (o : Int)))
    let out : Prop := ∃ o, eds.outPoint = some o ∧ at_ (2 * (o : Int))
    let fields : Int := c.sym (pos - 2 * ((a.recordIn : Int) + e.start))
    let reached : Nat :=
      if fields < 0 then 0
      else if e.transition = .cut then 4096
      else if fields ≤ a.duration then fields.toNat * 4096 / a.duration else 4096
    let used : Nat := max reached eds.progress
    let curved : Nat := curveAt (s.part.mep.curves.get (if h : e.curve < 4 then ⟨e.curve, h⟩ else 0)) used
    let full : Nat := if e.transition = .wipe then 4096 else 1024
    let level : Nat :=
      if e.transition = .cut then (if used = 4096 then 1024 else 0)
      else if a.duration < fields then full
      else if fields < 0 ∧ used = 0 then 0
      else if e.transition = .wipe then curved else (curved + 2) / 4
    let offset : Int := c.sym (pos - 2 * (a.recordIn : Int))
    let keyed : Bool := e.key.any (fun x => decide (2 * (x.onOffset : Int) ≤ offset ∧ offset < 2 * x.offOffset))
    let written (p : Part) : Prop :=
      p.mep.preload = { s.part.mep.preload with level := level, keyOn := keyed } ∧ p.eds.progress = used
    ∃ p : Part, exec (.fieldStart pins order) s = .next { s with part := p }
      ∧ (eds.phase = .roll → ¬ decides → p.eds = eds ∧ p.mep = s.part.mep ∧ (p.deck r).wantRecord = k.wantRecord)
      ∧ (eds.phase = .roll → decides → ∀ why, fault = some why →
          p.slot n = { s.part.slot n with state := .failed, run := { (s.part.slot n).run with reason := why } }
          ∧ p.eds.phase = .idle ∧ p.noticeSet .eventFailed = true ∧ (p.deck r).wantRecord = false)
      ∧ (eds.phase = .roll → decides → fault = none → ¬ off →
          p.eds.phase = .record ∧ p.eds.active = some n ∧ p.chu.syncWatch = true ∧ written p
          ∧ (e.kind = .insert → (p.deck r).wantRecord = true ∧ (p.port r).tracks = e.tracks)
          ∧ (e.kind = .preview → (p.deck r).wantRecord = k.wantRecord ∧ p.port r = { s.part.port r with
              slotLine := k.params.slotLine }))
      ∧ (eds.phase = .record → ¬ out → p.eds.phase = .record ∧ written p
          ∧ (p.deck r).wantRecord = if off ∧ e.kind = .insert then false else k.wantRecord)
      ∧ (eds.phase = .record → out → (e.kind = .insert → (p.deck r).wantRecord = false) ∧ p.chu.syncWatch = false
          ∧ (e.postroll ≠ 0 → p.eds.phase = .postroll ∧ p.eds.postroll = 2 * e.postroll ∧ written p)
          ∧ (e.postroll = 0 → (p.slot n).state = .done ∧ p.noticeSet .eventDone = true))
      ∧ (eds.phase = .postroll → 1 < eds.postroll → p.eds.phase = .postroll ∧ p.eds.postroll = eds.postroll - 1 ∧ written p)
end

