-- ==== Sys2Proof/Laws/State.lean ====
section
/-! SUPPORT. The small lemmas of tables and of the part's updates: what each update leaves and what it
changes, one lemma per field. -/

namespace Sys2Proof

/-! ## Tables -/

@[simp] theorem Table.get_set_self {α : Type} {n : Nat} (t : Table α n) (i : Fin n) (a : α) :
    (t.set i a).get i = a := by
  simp [Table.get, Table.set]

theorem Table.get_set_ne {α : Type} {n : Nat} (t : Table α n) {i j : Fin n} (a : α) (h : j ≠ i) :
    (t.set i a).get j = t.get j := by
  have : i.val ≠ j.val := fun e => h (Fin.ext e.symm)
  simp [Table.get, Table.set, List.getElem_set_ne this]

@[simp] theorem Table.get_modify_self {α : Type} {n : Nat} (t : Table α n) (i : Fin n) (f : α → α) :
    (t.modify i f).get i = f (t.get i) := by
  simp [Table.modify]

theorem Table.get_modify_ne {α : Type} {n : Nat} (t : Table α n) {i j : Fin n} (f : α → α) (h : j ≠ i) :
    (t.modify i f).get j = t.get j :=
  t.get_set_ne _ h

@[simp] theorem Table.get_map {α β : Type} {n : Nat} (f : α → β) (t : Table α n) (i : Fin n) :
    (t.map f).get i = f (t.get i) := by
  simp [Table.get, Table.map]

@[simp] theorem Table.get_replicate {α : Type} (n : Nat) (a : α) (i : Fin n) :
    (Table.replicate n a).get i = a := by
  simp [Table.get, Table.replicate]

/-- Two tables with the same entries are equal. -/
theorem Table.ext_get {α : Type} {n : Nat} {t u : Table α n} (h : ∀ i, t.get i = u.get i) : t = u := by
  obtain ⟨l, hl⟩ := t
  obtain ⟨m, hm⟩ := u
  have : l = m := by
    apply List.ext_getElem (by omega)
    intro i h1 h2
    exact h ⟨i, by omega⟩
  subst this
  rfl

end Sys2Proof

namespace Sys2Proof.Machine

open Sys2Proof

/-! ## The part's updates, field by field -/

@[simp] theorem Part.modDeck_rtu (p : Part) (d : DeckNo) (f : Deck → Deck) :
    (p.modDeck d f).rtu = p.rtu := rfl
@[simp] theorem Part.modDeck_pku (p : Part) (d : DeckNo) (f : Deck → Deck) :
    (p.modDeck d f).pku = p.pku := rfl
@[simp] theorem Part.modDeck_sius (p : Part) (d : DeckNo) (f : Deck → Deck) :
    (p.modDeck d f).sius = p.sius := rfl
@[simp] theorem Part.modDeck_tcu (p : Part) (d : DeckNo) (f : Deck → Deck) :
    (p.modDeck d f).tcu = p.tcu := rfl
@[simp] theorem Part.modDeck_decks (p : Part) (d : DeckNo) (f : Deck → Deck) :
    (p.modDeck d f).decks = p.decks.modify d f := rfl
@[simp] theorem Part.modDeck_ports (p : Part) (d : DeckNo) (f : Deck → Deck) :
    (p.modDeck d f).ports = p.ports := rfl
@[simp] theorem Part.modDeck_chu (p : Part) (d : DeckNo) (f : Deck → Deck) :
    (p.modDeck d f).chu = p.chu := rfl
@[simp] theorem Part.modDeck_eds (p : Part) (d : DeckNo) (f : Deck → Deck) :
    (p.modDeck d f).eds = p.eds := rfl
@[simp] theorem Part.modDeck_mep (p : Part) (d : DeckNo) (f : Deck → Deck) :
    (p.modDeck d f).mep = p.mep := rfl
@[simp] theorem Part.modDeck_gtu (p : Part) (d : DeckNo) (f : Deck → Deck) :
    (p.modDeck d f).gtu = p.gtu := rfl

@[simp] theorem Part.modPort_rtu (p : Part) (d : DeckNo) (f : Port → Port) :
    (p.modPort d f).rtu = p.rtu := rfl
@[simp] theorem Part.modPort_pku (p : Part) (d : DeckNo) (f : Port → Port) :
    (p.modPort d f).pku = p.pku := rfl
@[simp] theorem Part.modPort_sius (p : Part) (d : DeckNo) (f : Port → Port) :
    (p.modPort d f).sius = p.sius := rfl
@[simp] theorem Part.modPort_tcu (p : Part) (d : DeckNo) (f : Port → Port) :
    (p.modPort d f).tcu = p.tcu := rfl
@[simp] theorem Part.modPort_decks (p : Part) (d : DeckNo) (f : Port → Port) :
    (p.modPort d f).decks = p.decks := rfl
@[simp] theorem Part.modPort_ports (p : Part) (d : DeckNo) (f : Port → Port) :
    (p.modPort d f).ports = p.ports.modify d f := rfl
@[simp] theorem Part.modPort_chu (p : Part) (d : DeckNo) (f : Port → Port) :
    (p.modPort d f).chu = p.chu := rfl
@[simp] theorem Part.modPort_eds (p : Part) (d : DeckNo) (f : Port → Port) :
    (p.modPort d f).eds = p.eds := rfl
@[simp] theorem Part.modPort_mep (p : Part) (d : DeckNo) (f : Port → Port) :
    (p.modPort d f).mep = p.mep := rfl
@[simp] theorem Part.modPort_gtu (p : Part) (d : DeckNo) (f : Port → Port) :
    (p.modPort d f).gtu = p.gtu := rfl

@[simp] theorem Part.modSiu_rtu (p : Part) (i : Input) (f : Siu → Siu) :
    (p.modSiu i f).rtu = p.rtu := rfl
@[simp] theorem Part.modSiu_pku (p : Part) (i : Input) (f : Siu → Siu) :
    (p.modSiu i f).pku = p.pku := rfl
@[simp] theorem Part.modSiu_sius (p : Part) (i : Input) (f : Siu → Siu) :
    (p.modSiu i f).sius = p.sius.modify i.idx f := rfl
@[simp] theorem Part.modSiu_tcu (p : Part) (i : Input) (f : Siu → Siu) :
    (p.modSiu i f).tcu = p.tcu := rfl
@[simp] theorem Part.modSiu_decks (p : Part) (i : Input) (f : Siu → Siu) :
    (p.modSiu i f).decks = p.decks := rfl
@[simp] theorem Part.modSiu_ports (p : Part) (i : Input) (f : Siu → Siu) :
    (p.modSiu i f).ports = p.ports := rfl
@[simp] theorem Part.modSiu_chu (p : Part) (i : Input) (f : Siu → Siu) :
    (p.modSiu i f).chu = p.chu := rfl
@[simp] theorem Part.modSiu_eds (p : Part) (i : Input) (f : Siu → Siu) :
    (p.modSiu i f).eds = p.eds := rfl
@[simp] theorem Part.modSiu_mep (p : Part) (i : Input) (f : Siu → Siu) :
    (p.modSiu i f).mep = p.mep := rfl
@[simp] theorem Part.modSiu_gtu (p : Part) (i : Input) (f : Siu → Siu) :
    (p.modSiu i f).gtu = p.gtu := rfl

@[simp] theorem Part.modChase_rtu (p : Part) (d : DeckNo) (f : ChaseOwn → ChaseOwn) :
    (p.modChase d f).rtu = p.rtu := rfl
@[simp] theorem Part.modChase_pku (p : Part) (d : DeckNo) (f : ChaseOwn → ChaseOwn) :
    (p.modChase d f).pku = p.pku := rfl
@[simp] theorem Part.modChase_sius (p : Part) (d : DeckNo) (f : ChaseOwn → ChaseOwn) :
    (p.modChase d f).sius = p.sius := rfl
@[simp] theorem Part.modChase_tcu (p : Part) (d : DeckNo) (f : ChaseOwn → ChaseOwn) :
    (p.modChase d f).tcu = p.tcu := rfl
@[simp] theorem Part.modChase_decks (p : Part) (d : DeckNo) (f : ChaseOwn → ChaseOwn) :
    (p.modChase d f).decks = p.decks := rfl
@[simp] theorem Part.modChase_ports (p : Part) (d : DeckNo) (f : ChaseOwn → ChaseOwn) :
    (p.modChase d f).ports = p.ports := rfl
@[simp] theorem Part.modChase_chu (p : Part) (d : DeckNo) (f : ChaseOwn → ChaseOwn) :
    (p.modChase d f).chu = { p.chu with own := p.chu.own.modify d f } := rfl
@[simp] theorem Part.modChase_eds (p : Part) (d : DeckNo) (f : ChaseOwn → ChaseOwn) :
    (p.modChase d f).eds = p.eds := rfl
@[simp] theorem Part.modChase_mep (p : Part) (d : DeckNo) (f : ChaseOwn → ChaseOwn) :
    (p.modChase d f).mep = p.mep := rfl
@[simp] theorem Part.modChase_gtu (p : Part) (d : DeckNo) (f : ChaseOwn → ChaseOwn) :
    (p.modChase d f).gtu = p.gtu := rfl

@[simp] theorem Part.modEds_rtu (p : Part) (f : Eds → Eds) :
    (p.modEds f).rtu = p.rtu := rfl
@[simp] theorem Part.modEds_pku (p : Part) (f : Eds → Eds) :
    (p.modEds f).pku = p.pku := rfl
@[simp] theorem Part.modEds_sius (p : Part) (f : Eds → Eds) :
    (p.modEds f).sius = p.sius := rfl
@[simp] theorem Part.modEds_tcu (p : Part) (f : Eds → Eds) :
    (p.modEds f).tcu = p.tcu := rfl
@[simp] theorem Part.modEds_decks (p : Part) (f : Eds → Eds) :
    (p.modEds f).decks = p.decks := rfl
@[simp] theorem Part.modEds_ports (p : Part) (f : Eds → Eds) :
    (p.modEds f).ports = p.ports := rfl
@[simp] theorem Part.modEds_chu (p : Part) (f : Eds → Eds) :
    (p.modEds f).chu = p.chu := rfl
@[simp] theorem Part.modEds_eds (p : Part) (f : Eds → Eds) :
    (p.modEds f).eds = f p.eds := rfl
@[simp] theorem Part.modEds_mep (p : Part) (f : Eds → Eds) :
    (p.modEds f).mep = p.mep := rfl
@[simp] theorem Part.modEds_gtu (p : Part) (f : Eds → Eds) :
    (p.modEds f).gtu = p.gtu := rfl

@[simp] theorem Part.modSlot_rtu (p : Part) (n : SlotNo) (f : Slot → Slot) :
    (p.modSlot n f).rtu = p.rtu := rfl
@[simp] theorem Part.modSlot_pku (p : Part) (n : SlotNo) (f : Slot → Slot) :
    (p.modSlot n f).pku = p.pku := rfl
@[simp] theorem Part.modSlot_sius (p : Part) (n : SlotNo) (f : Slot → Slot) :
    (p.modSlot n f).sius = p.sius := rfl
@[simp] theorem Part.modSlot_tcu (p : Part) (n : SlotNo) (f : Slot → Slot) :
    (p.modSlot n f).tcu = p.tcu := rfl
@[simp] theorem Part.modSlot_decks (p : Part) (n : SlotNo) (f : Slot → Slot) :
    (p.modSlot n f).decks = p.decks := rfl
@[simp] theorem Part.modSlot_ports (p : Part) (n : SlotNo) (f : Slot → Slot) :
    (p.modSlot n f).ports = p.ports := rfl
@[simp] theorem Part.modSlot_chu (p : Part) (n : SlotNo) (f : Slot → Slot) :
    (p.modSlot n f).chu = p.chu := rfl
@[simp] theorem Part.modSlot_eds (p : Part) (n : SlotNo) (f : Slot → Slot) :
    (p.modSlot n f).eds = { p.eds with slots := p.eds.slots.modify n f } := rfl
@[simp] theorem Part.modSlot_mep (p : Part) (n : SlotNo) (f : Slot → Slot) :
    (p.modSlot n f).mep = p.mep := rfl
@[simp] theorem Part.modSlot_gtu (p : Part) (n : SlotNo) (f : Slot → Slot) :
    (p.modSlot n f).gtu = p.gtu := rfl

@[simp] theorem Part.modMep_rtu (p : Part) (f : Mep → Mep) :
    (p.modMep f).rtu = p.rtu := rfl
@[simp] theorem Part.modMep_pku (p : Part) (f : Mep → Mep) :
    (p.modMep f).pku = p.pku := rfl
@[simp] theorem Part.modMep_sius (p : Part) (f : Mep → Mep) :
    (p.modMep f).sius = p.sius := rfl
@[simp] theorem Part.modMep_tcu (p : Part) (f : Mep → Mep) :
    (p.modMep f).tcu = p.tcu := rfl
@[simp] theorem Part.modMep_decks (p : Part) (f : Mep → Mep) :
    (p.modMep f).decks = p.decks := rfl
@[simp] theorem Part.modMep_ports (p : Part) (f : Mep → Mep) :
    (p.modMep f).ports = p.ports := rfl
@[simp] theorem Part.modMep_chu (p : Part) (f : Mep → Mep) :
    (p.modMep f).chu = p.chu := rfl
@[simp] theorem Part.modMep_eds (p : Part) (f : Mep → Mep) :
    (p.modMep f).eds = p.eds := rfl
@[simp] theorem Part.modMep_mep (p : Part) (f : Mep → Mep) :
    (p.modMep f).mep = f p.mep := rfl
@[simp] theorem Part.modMep_gtu (p : Part) (f : Mep → Mep) :
    (p.modMep f).gtu = p.gtu := rfl

@[simp] theorem Part.modPku_rtu (p : Part) (f : Pku → Pku) :
    (p.modPku f).rtu = p.rtu := rfl
@[simp] theorem Part.modPku_pku (p : Part) (f : Pku → Pku) :
    (p.modPku f).pku = f p.pku := rfl
@[simp] theorem Part.modPku_sius (p : Part) (f : Pku → Pku) :
    (p.modPku f).sius = p.sius := rfl
@[simp] theorem Part.modPku_tcu (p : Part) (f : Pku → Pku) :
    (p.modPku f).tcu = p.tcu := rfl
@[simp] theorem Part.modPku_decks (p : Part) (f : Pku → Pku) :
    (p.modPku f).decks = p.decks := rfl
@[simp] theorem Part.modPku_ports (p : Part) (f : Pku → Pku) :
    (p.modPku f).ports = p.ports := rfl
@[simp] theorem Part.modPku_chu (p : Part) (f : Pku → Pku) :
    (p.modPku f).chu = p.chu := rfl
@[simp] theorem Part.modPku_eds (p : Part) (f : Pku → Pku) :
    (p.modPku f).eds = p.eds := rfl
@[simp] theorem Part.modPku_mep (p : Part) (f : Pku → Pku) :
    (p.modPku f).mep = p.mep := rfl
@[simp] theorem Part.modPku_gtu (p : Part) (f : Pku → Pku) :
    (p.modPku f).gtu = p.gtu := rfl

@[simp] theorem Part.modRtu_rtu (p : Part) (f : Rtu → Rtu) :
    (p.modRtu f).rtu = f p.rtu := rfl
@[simp] theorem Part.modRtu_pku (p : Part) (f : Rtu → Rtu) :
    (p.modRtu f).pku = p.pku := rfl
@[simp] theorem Part.modRtu_sius (p : Part) (f : Rtu → Rtu) :
    (p.modRtu f).sius = p.sius := rfl
@[simp] theorem Part.modRtu_tcu (p : Part) (f : Rtu → Rtu) :
    (p.modRtu f).tcu = p.tcu := rfl
@[simp] theorem Part.modRtu_decks (p : Part) (f : Rtu → Rtu) :
    (p.modRtu f).decks = p.decks := rfl
@[simp] theorem Part.modRtu_ports (p : Part) (f : Rtu → Rtu) :
    (p.modRtu f).ports = p.ports := rfl
@[simp] theorem Part.modRtu_chu (p : Part) (f : Rtu → Rtu) :
    (p.modRtu f).chu = p.chu := rfl
@[simp] theorem Part.modRtu_eds (p : Part) (f : Rtu → Rtu) :
    (p.modRtu f).eds = p.eds := rfl
@[simp] theorem Part.modRtu_mep (p : Part) (f : Rtu → Rtu) :
    (p.modRtu f).mep = p.mep := rfl
@[simp] theorem Part.modRtu_gtu (p : Part) (f : Rtu → Rtu) :
    (p.modRtu f).gtu = p.gtu := rfl

@[simp] theorem Part.modTcu_rtu (p : Part) (f : Tcu → Tcu) :
    (p.modTcu f).rtu = p.rtu := rfl
@[simp] theorem Part.modTcu_pku (p : Part) (f : Tcu → Tcu) :
    (p.modTcu f).pku = p.pku := rfl
@[simp] theorem Part.modTcu_sius (p : Part) (f : Tcu → Tcu) :
    (p.modTcu f).sius = p.sius := rfl
@[simp] theorem Part.modTcu_tcu (p : Part) (f : Tcu → Tcu) :
    (p.modTcu f).tcu = f p.tcu := rfl
@[simp] theorem Part.modTcu_decks (p : Part) (f : Tcu → Tcu) :
    (p.modTcu f).decks = p.decks := rfl
@[simp] theorem Part.modTcu_ports (p : Part) (f : Tcu → Tcu) :
    (p.modTcu f).ports = p.ports := rfl
@[simp] theorem Part.modTcu_chu (p : Part) (f : Tcu → Tcu) :
    (p.modTcu f).chu = p.chu := rfl
@[simp] theorem Part.modTcu_eds (p : Part) (f : Tcu → Tcu) :
    (p.modTcu f).eds = p.eds := rfl
@[simp] theorem Part.modTcu_mep (p : Part) (f : Tcu → Tcu) :
    (p.modTcu f).mep = p.mep := rfl
@[simp] theorem Part.modTcu_gtu (p : Part) (f : Tcu → Tcu) :
    (p.modTcu f).gtu = p.gtu := rfl

@[simp] theorem Part.modGtu_rtu (p : Part) (f : Gtu → Gtu) :
    (p.modGtu f).rtu = p.rtu := rfl
@[simp] theorem Part.modGtu_pku (p : Part) (f : Gtu → Gtu) :
    (p.modGtu f).pku = p.pku := rfl
@[simp] theorem Part.modGtu_sius (p : Part) (f : Gtu → Gtu) :
    (p.modGtu f).sius = p.sius := rfl
@[simp] theorem Part.modGtu_tcu (p : Part) (f : Gtu → Gtu) :
    (p.modGtu f).tcu = p.tcu := rfl
@[simp] theorem Part.modGtu_decks (p : Part) (f : Gtu → Gtu) :
    (p.modGtu f).decks = p.decks := rfl
@[simp] theorem Part.modGtu_ports (p : Part) (f : Gtu → Gtu) :
    (p.modGtu f).ports = p.ports := rfl
@[simp] theorem Part.modGtu_chu (p : Part) (f : Gtu → Gtu) :
    (p.modGtu f).chu = p.chu := rfl
@[simp] theorem Part.modGtu_eds (p : Part) (f : Gtu → Gtu) :
    (p.modGtu f).eds = p.eds := rfl
@[simp] theorem Part.modGtu_mep (p : Part) (f : Gtu → Gtu) :
    (p.modGtu f).mep = p.mep := rfl
@[simp] theorem Part.modGtu_gtu (p : Part) (f : Gtu → Gtu) :
    (p.modGtu f).gtu = f p.gtu := rfl

@[simp] theorem Part.raise_rtu (p : Part) (n : Notice) :
    (p.raise n).rtu = p.rtu := rfl
@[simp] theorem Part.raise_pku (p : Part) (n : Notice) :
    (p.raise n).pku = { p.pku with notices := p.pku.notices ||| n.mask } := rfl
@[simp] theorem Part.raise_sius (p : Part) (n : Notice) :
    (p.raise n).sius = p.sius := rfl
@[simp] theorem Part.raise_tcu (p : Part) (n : Notice) :
    (p.raise n).tcu = p.tcu := rfl
@[simp] theorem Part.raise_decks (p : Part) (n : Notice) :
    (p.raise n).decks = p.decks := rfl
@[simp] theorem Part.raise_ports (p : Part) (n : Notice) :
    (p.raise n).ports = p.ports := rfl
@[simp] theorem Part.raise_chu (p : Part) (n : Notice) :
    (p.raise n).chu = p.chu := rfl
@[simp] theorem Part.raise_eds (p : Part) (n : Notice) :
    (p.raise n).eds = p.eds := rfl
@[simp] theorem Part.raise_mep (p : Part) (n : Notice) :
    (p.raise n).mep = p.mep := rfl
@[simp] theorem Part.raise_gtu (p : Part) (n : Notice) :
    (p.raise n).gtu = p.gtu := rfl

@[simp] theorem Part.reply_rtu (p : Part) (k o : Nat) (a : Answer) :
    (p.reply k o a).rtu = p.rtu := rfl
@[simp] theorem Part.reply_pku (p : Part) (k o : Nat) (a : Answer) :
    (p.reply k o a).pku = { p.pku with building := p.pku.building ++ [replyOf k o a] } := rfl
@[simp] theorem Part.reply_sius (p : Part) (k o : Nat) (a : Answer) :
    (p.reply k o a).sius = p.sius := rfl
@[simp] theorem Part.reply_tcu (p : Part) (k o : Nat) (a : Answer) :
    (p.reply k o a).tcu = p.tcu := rfl
@[simp] theorem Part.reply_decks (p : Part) (k o : Nat) (a : Answer) :
    (p.reply k o a).decks = p.decks := rfl
@[simp] theorem Part.reply_ports (p : Part) (k o : Nat) (a : Answer) :
    (p.reply k o a).ports = p.ports := rfl
@[simp] theorem Part.reply_chu (p : Part) (k o : Nat) (a : Answer) :
    (p.reply k o a).chu = p.chu := rfl
@[simp] theorem Part.reply_eds (p : Part) (k o : Nat) (a : Answer) :
    (p.reply k o a).eds = p.eds := rfl
@[simp] theorem Part.reply_mep (p : Part) (k o : Nat) (a : Answer) :
    (p.reply k o a).mep = p.mep := rfl
@[simp] theorem Part.reply_gtu (p : Part) (k o : Nat) (a : Answer) :
    (p.reply k o a).gtu = p.gtu := rfl

@[simp] theorem Part.setSyncWatch_rtu (p : Part) (b : Bool) :
    (p.setSyncWatch b).rtu = p.rtu := rfl
@[simp] theorem Part.setSyncWatch_pku (p : Part) (b : Bool) :
    (p.setSyncWatch b).pku = p.pku := rfl
@[simp] theorem Part.setSyncWatch_sius (p : Part) (b : Bool) :
    (p.setSyncWatch b).sius = p.sius := rfl
@[simp] theorem Part.setSyncWatch_tcu (p : Part) (b : Bool) :
    (p.setSyncWatch b).tcu = p.tcu := rfl
@[simp] theorem Part.setSyncWatch_decks (p : Part) (b : Bool) :
    (p.setSyncWatch b).decks = p.decks := rfl
@[simp] theorem Part.setSyncWatch_ports (p : Part) (b : Bool) :
    (p.setSyncWatch b).ports = p.ports := rfl
@[simp] theorem Part.setSyncWatch_chu (p : Part) (b : Bool) :
    (p.setSyncWatch b).chu = { p.chu with syncWatch := b } := rfl
@[simp] theorem Part.setSyncWatch_eds (p : Part) (b : Bool) :
    (p.setSyncWatch b).eds = p.eds := rfl
@[simp] theorem Part.setSyncWatch_mep (p : Part) (b : Bool) :
    (p.setSyncWatch b).mep = p.mep := rfl
@[simp] theorem Part.setSyncWatch_gtu (p : Part) (b : Bool) :
    (p.setSyncWatch b).gtu = p.gtu := rfl

/-! ## Reading one deck, port or slot after an update -/

@[simp] theorem Part.modDeck_deck_self (p : Part) (d : DeckNo) (f : Deck → Deck) :
    (p.modDeck d f).deck d = f (p.deck d) := Table.get_modify_self _ _ _

theorem Part.modDeck_deck_ne (p : Part) {d e : DeckNo} (f : Deck → Deck) (h : e ≠ d) :
    (p.modDeck d f).deck e = p.deck e := Table.get_modify_ne _ _ h

@[simp] theorem Part.modPort_port_self (p : Part) (d : DeckNo) (f : Port → Port) :
    (p.modPort d f).port d = f (p.port d) := Table.get_modify_self _ _ _

theorem Part.modPort_port_ne (p : Part) {d e : DeckNo} (f : Port → Port) (h : e ≠ d) :
    (p.modPort d f).port e = p.port e := Table.get_modify_ne _ _ h

@[simp] theorem Part.modSlot_slot_self (p : Part) (n : SlotNo) (f : Slot → Slot) :
    (p.modSlot n f).slot n = f (p.slot n) := Table.get_modify_self _ _ _

theorem Part.modSlot_slot_ne (p : Part) {n m : SlotNo} (f : Slot → Slot) (h : m ≠ n) :
    (p.modSlot n f).slot m = p.slot m := Table.get_modify_ne _ _ h

@[simp] theorem Part.modSiu_siu_self (p : Part) (i : Input) (f : Siu → Siu) :
    (p.modSiu i f).siu i = f (p.siu i) := Table.get_modify_self _ _ _

theorem Input.idx_injective {i j : Input} (h : i.idx = j.idx) : i = j := by
  cases i <;> cases j <;> first | rfl | (exact absurd h (by decide))

theorem Part.modSiu_siu_ne (p : Part) {i j : Input} (f : Siu → Siu) (h : j ≠ i) :
    (p.modSiu i f).siu j = p.siu j :=
  Table.get_modify_ne _ _ (fun e => h (Input.idx_injective e))

@[simp] theorem Part.modPort_deck (p : Part) (d e : DeckNo) (f : Port → Port) :
    (p.modPort d f).deck e = p.deck e := rfl

@[simp] theorem Part.modDeck_port (p : Part) (d e : DeckNo) (f : Deck → Deck) :
    (p.modDeck d f).port e = p.port e := rfl

@[simp] theorem Part.modEds_deck (p : Part) (f : Eds → Eds) (e : DeckNo) :
    (p.modEds f).deck e = p.deck e := rfl

@[simp] theorem Part.modEds_port (p : Part) (f : Eds → Eds) (e : DeckNo) :
    (p.modEds f).port e = p.port e := rfl

@[simp] theorem Part.modDeck_slot (p : Part) (d : DeckNo) (f : Deck → Deck) (n : SlotNo) :
    (p.modDeck d f).slot n = p.slot n := rfl

@[simp] theorem Part.modPort_slot (p : Part) (d : DeckNo) (f : Port → Port) (n : SlotNo) :
    (p.modPort d f).slot n = p.slot n := rfl

@[simp] theorem Part.raise_deck (p : Part) (n : Notice) (e : DeckNo) : (p.raise n).deck e = p.deck e := rfl

@[simp] theorem Part.raise_slot (p : Part) (n : Notice) (m : SlotNo) : (p.raise n).slot m = p.slot m := rfl

@[simp] theorem Part.reply_deck (p : Part) (k o : Nat) (a : Answer) (e : DeckNo) :
    (p.reply k o a).deck e = p.deck e := rfl

@[simp] theorem Part.reply_slot (p : Part) (k o : Nat) (a : Answer) (n : SlotNo) :
    (p.reply k o a).slot n = p.slot n := rfl

/-! ## The state with another part or queue -/

@[simp] theorem State.withPart_part (s : State) (p : Part) : ({ s with part := p } : State).part = p := rfl

@[simp] theorem State.withPart_pending (s : State) (p : Part) :
    ({ s with part := p } : State).pending = s.pending := rfl

@[simp] theorem State.withPending_part (s : State) (l : List Instr) :
    ({ s with pending := l } : State).part = s.part := rfl

end Sys2Proof.Machine
end

