-- ==== Sys2Proof/Laws/Engine.lean ====
section
/-! SUPPORT. What no move of the Edit Sequencer touches: the RTU, the source inputs and the console, for each
of its operations in turn. -/

namespace Sys2Proof.Machine

open Sys2Proof

/-- An operation done for each deck of a list keeps whatever each single one keeps. -/
theorem Part.each_keeps {α : Type} (g : Part → α) (f : DeckNo → Part → Part)
    (h : ∀ d q, g (f d q) = g q) (ds : List DeckNo) (p : Part) : g (p.each ds f) = g p := by
  induction ds generalizing p with
  | nil => rfl
  | cons d ds ih => exact (ih (f d p)).trans (h d p)

/-- The blocks that the EDS acts beside: RTU, source inputs and console. -/
def Part.aside (p : Part) : Rtu × Table Siu 3 × Gtu := (p.rtu, p.sius, p.gtu)

@[simp] theorem Part.modDeck_aside (p : Part) (d : DeckNo) (f : Deck → Deck) : (p.modDeck d f).aside = p.aside := rfl
@[simp] theorem Part.modPort_aside (p : Part) (d : DeckNo) (f : Port → Port) : (p.modPort d f).aside = p.aside := rfl
@[simp] theorem Part.modChase_aside (p : Part) (d : DeckNo) (f : ChaseOwn → ChaseOwn) : (p.modChase d f).aside = p.aside := rfl
@[simp] theorem Part.modEds_aside (p : Part) (f : Eds → Eds) : (p.modEds f).aside = p.aside := rfl
@[simp] theorem Part.modSlot_aside (p : Part) (n : SlotNo) (f : Slot → Slot) : (p.modSlot n f).aside = p.aside := rfl
@[simp] theorem Part.modMep_aside (p : Part) (f : Mep → Mep) : (p.modMep f).aside = p.aside := rfl
@[simp] theorem Part.modPku_aside (p : Part) (f : Pku → Pku) : (p.modPku f).aside = p.aside := rfl
@[simp] theorem Part.modTcu_aside (p : Part) (f : Tcu → Tcu) : (p.modTcu f).aside = p.aside := rfl
@[simp] theorem Part.raise_aside (p : Part) (n : Notice) : (p.raise n).aside = p.aside := rfl
@[simp] theorem Part.setSyncWatch_aside (p : Part) (b : Bool) : (p.setSyncWatch b).aside = p.aside := rfl

@[simp] theorem Part.wantTransport_aside (p : Part) (d : DeckNo) (w : Want) : (p.wantTransport d w).aside = p.aside := by
  simp [Part.wantTransport]

@[simp] theorem Part.wantTransportResent_aside (p : Part) (d : DeckNo) (w : Want) : (p.wantTransportResent d w).aside = p.aside := by
  simp [Part.wantTransportResent]

@[simp] theorem Part.wantRecordOn_aside (p : Part) (d : DeckNo) (tracks : BitVec 4) : (p.wantRecordOn d tracks).aside = p.aside := by
  simp [Part.wantRecordOn]

@[simp] theorem Part.wantRecordOff_aside (p : Part) (d : DeckNo) : (p.wantRecordOff d).aside = p.aside := by
  simp [Part.wantRecordOff]

@[simp] theorem Part.wantSpeed_aside (p : Part) (d : DeckNo) (v : Int) : (p.wantSpeed d v).aside = p.aside := by
  simp [Part.wantSpeed]

@[simp] theorem Part.dropDirect_aside (p : Part) (d : DeckNo) : (p.dropDirect d).aside = p.aside := by
  simp [Part.dropDirect]

@[simp] theorem Part.chaseStart_aside (p : Part) (d : DeckNo) (a b : Nat) : (p.chaseStart d a b).aside = p.aside := by
  simp [Part.chaseStart]

@[simp] theorem Part.chaseStop_aside (p : Part) (d : DeckNo) : (p.chaseStop d).aside = p.aside := by
  simp [Part.chaseStop]

@[simp] theorem Part.chaseStopAll_aside (p : Part) : (p.chaseStopAll).aside = p.aside :=
  Part.each_keeps Part.aside _ (fun d q => by split <;> simp) _ _

@[simp] theorem Part.enterIdle_aside (p : Part) (b : Bool) : (p.enterIdle b).aside = p.aside := by
  simp [Part.enterIdle]

@[simp] theorem Part.endList_aside (p : Part) : (p.endList).aside = p.aside := by
  simp [Part.endList]

@[simp] theorem Part.stopGuard_aside (p : Part) : (p.stopGuard).aside = p.aside := by
  simp [Part.stopGuard]

@[simp] theorem Part.stillAll_aside (p : Part) : (p.stillAll).aside = p.aside :=
  Part.each_keeps Part.aside _ (fun d q => by simp) _ _

@[simp] theorem Part.recordOff_aside (p : Part) : (p.recordOff).aside = p.aside := by
  unfold Part.recordOff
  (repeat' split) <;> simp

@[simp] theorem Part.closeSlot_aside (p : Part) (st : SlotState) (r : Reason) : (p.closeSlot st r).aside = p.aside := by
  unfold Part.closeSlot
  (repeat' split) <;> simp

@[simp] theorem Part.closeEvent_aside (p : Part) (st : SlotState) (r : Reason) : (p.closeEvent st r).aside = p.aside := by
  simp [Part.closeEvent]

@[simp] theorem Part.disarmAll_aside (p : Part) : (p.disarmAll).aside = p.aside := by
  simp [Part.disarmAll]

@[simp] theorem Part.failEvent_aside (p : Part) (r : Reason) : (p.failEvent r).aside = p.aside := by
  unfold Part.failEvent
  (repeat' split) <;> simp

@[simp] theorem Part.abortEvent_aside (p : Part) (r : Reason) : (p.abortEvent r).aside = p.aside := by
  unfold Part.abortEvent
  (repeat' split) <;> simp

@[simp] theorem Part.resetEngine_aside (p : Part) : (p.resetEngine).aside = p.aside := by
  unfold Part.resetEngine
  (repeat' split) <;> simp

@[simp] theorem Part.setCue_aside (p : Part) (d : DeckNo) (c : CueRecord) : (p.setCue d c).aside = p.aside := by
  simp [Part.setCue]

@[simp] theorem Part.giveCue_aside (p : Part) (a : ArmResults) (d : DeckNo) : (p.giveCue a d).aside = p.aside := by
  unfold Part.giveCue
  (repeat' split) <;> simp

@[simp] theorem Part.activate_aside (p : Part) (n : SlotNo) (a : ArmResults) : (p.activate n a).aside = p.aside := by
  unfold Part.activate
  dsimp only
  rw [Part.each_keeps Part.aside _ (fun d q => by simp)]
  simp

@[simp] theorem Part.startEvent_aside (p : Part) (n : SlotNo) : (p.startEvent n).aside = p.aside := by
  unfold Part.startEvent
  split
  · rfl
  · dsimp only
    split
    · simp
    · rw [Part.each_keeps Part.aside _ (fun d q => by simp)]
      simp

@[simp] theorem Part.setCursor_aside (p : Part) (n : SlotNo) : (p.setCursor n).aside = p.aside := by
  simp [Part.setCursor]

@[simp] theorem Part.armEvent_aside (p : Part) (n : SlotNo) (e : EventRecord) :
    (p.armEvent n e).1.aside = p.aside := by
  unfold Part.armEvent
  dsimp only
  split <;> simp

@[simp] theorem Part.armSlot_aside (p : Part) (n : SlotNo) : (p.armSlot n).1.aside = p.aside := by
  unfold Part.armSlot
  split <;> simp

@[simp] theorem cursorArrives_aside (fuel : Nat) : ∀ (m : Nat) (p : Part), (cursorArrives fuel m p).aside = p.aside := by
  induction fuel with
  | zero => intro m p; simp [cursorArrives]
  | succ fuel ih =>
    intro m p
    unfold cursorArrives
    split
    · simp
    · rename_i k _
      split
      · exact ih _ _
      · simp
      · have ha := p.armSlot_aside k
        split
        rename_i q a hq
        rw [hq] at ha
        split <;> simpa using ha

@[simp] theorem Part.moveOn_aside (p : Part) (n : SlotNo) : (p.moveOn n).aside = p.aside := by
  unfold Part.moveOn
  (repeat' split) <;> simp

@[simp] theorem Part.endPostroll_aside (p : Part) : (p.endPostroll).aside = p.aside := by
  unfold Part.endPostroll
  (repeat' split) <;> simp

@[simp] theorem Part.enterPostroll_aside (p : Part) : (p.enterPostroll).aside = p.aside := by
  unfold Part.enterPostroll
  (repeat' split) <;> simp

@[simp] theorem Part.enterRoll_aside (p : Part) : (p.enterRoll).aside = p.aside := by
  unfold Part.enterRoll
  (repeat' split) <;> simp

@[simp] theorem Part.rollPlay_aside (p : Part) (d : DeckNo) : (p.rollPlay d).aside = p.aside := by
  unfold Part.rollPlay
  (repeat' split) <;> simp

@[simp] theorem Part.enterHold_aside (p : Part) : (p.enterHold).aside = p.aside := by
  unfold Part.enterHold
  (repeat' split) <;> simp

@[simp] theorem Part.leaveCue_aside (p : Part) : (p.leaveCue).aside = p.aside := by
  unfold Part.leaveCue
  (repeat' split) <;> simp

@[simp] theorem Part.leaveHold_aside (p : Part) : (p.leaveHold).aside = p.aside := by
  unfold Part.leaveHold
  (repeat' split) <;> simp

@[simp] theorem Part.takeRelease_aside (p : Part) : (p.takeRelease).aside = p.aside := by
  simp [Part.takeRelease]

@[simp] theorem Part.judgeCue_aside (p : Part) (d : DeckNo) (point : Nat) (c : CueRecord) : (p.judgeCue d point c).aside = p.aside := by
  unfold Part.judgeCue
  dsimp only
  (repeat' split) <;> simp

@[simp] theorem Part.cueReport_aside (p : Part) (d : DeckNo) (fr : Frame) (refused : Bool) : (p.cueReport d fr refused).aside = p.aside := by
  unfold Part.cueReport
  (repeat' split) <;> simp

@[simp] theorem Part.judgeCueTimer_aside (p : Part) (d : DeckNo) : (p.judgeCueTimer d).aside = p.aside := by
  unfold Part.judgeCueTimer
  (repeat' split) <;> simp

@[simp] theorem Part.tickCueTimers_aside (p : Part) : (p.tickCueTimers).aside = p.aside := by
  unfold Part.tickCueTimers
  split
  · rw [Part.each_keeps Part.aside _ (fun d q => by simp)]
    simp
  · rfl

@[simp] theorem Part.decideRecordOn_aside (p : Part) (r : DeckNo) (e : EventRecord) : (p.decideRecordOn r e).aside = p.aside := by
  unfold Part.decideRecordOn
  (repeat' split) <;> simp

@[simp] theorem Part.writeTransition_aside (p : Part) (position : Nat) (e : EventRecord) (a : ArmResults) : (p.writeTransition position e a).aside = p.aside := by
  simp [Part.writeTransition]

@[simp] theorem Part.spanPoints_aside (p : Part) (r : DeckNo) (position : Nat) (e : EventRecord) : (p.spanPoints r position e).aside = p.aside := by
  unfold Part.spanPoints
  dsimp only
  (repeat' split) <;> simp

@[simp] theorem Part.recorderAdvanced_aside (p : Part) (r : DeckNo) : (p.recorderAdvanced r).aside = p.aside := by
  unfold Part.recorderAdvanced
  dsimp only
  (repeat' split) <;> simp

@[simp] theorem Part.endOpenEvent_aside (p : Part) : (p.endOpenEvent).aside = p.aside := by
  unfold Part.endOpenEvent
  (repeat' split) <;> simp

@[simp] theorem Part.takeTrigger_aside (p : Part) : (p.takeTrigger).aside = p.aside := by
  unfold Part.takeTrigger
  (repeat' split) <;> simp

@[simp] theorem Part.recordReport_aside (p : Part) (d : DeckNo) (fr : Frame) (refused : Bool) (label : RawLabel) : (p.recordReport d fr refused label).aside = p.aside := by
  unfold Part.recordReport
  (repeat' split) <;> simp

@[simp] theorem Part.deckReported_aside (p : Part) (d : DeckNo) (fr : Frame) (refused : Bool) (label : RawLabel) : (p.deckReported d fr refused label).aside = p.aside := by
  simp [Part.deckReported]

@[simp] theorem Part.tickPostroll_aside (p : Part) : (p.tickPostroll).aside = p.aside := by
  unfold Part.tickPostroll
  dsimp only
  (repeat' split) <;> simp

@[simp] theorem Part.lineChanged_aside (p : Part) (d : DeckNo) : (p.lineChanged d).aside = p.aside := by
  unfold Part.lineChanged
  (repeat' split) <;> simp

@[simp] theorem Part.chaseLost_aside (p : Part) (r : Reason) : (p.chaseLost r).aside = p.aside := by
  unfold Part.chaseLost
  (repeat' split) <;> simp

@[simp] theorem Part.syncLost_aside (p : Part) : (p.syncLost).aside = p.aside := by
  unfold Part.syncLost
  (repeat' split) <;> simp

@[simp] theorem Part.tripGuard_aside (p : Part) : (p.tripGuard).aside = p.aside := by
  simp [Part.tripGuard]

@[simp] theorem Part.judgeGuard_aside (p : Part) : (p.judgeGuard).aside = p.aside := by
  unfold Part.judgeGuard
  (repeat' split) <;> simp

@[simp] theorem Part.tickGuard_aside (p : Part) : (p.tickGuard).aside = p.aside := by
  unfold Part.tickGuard
  (repeat' split) <;> simp

@[simp] theorem Part.lockLeft_aside (p : Part) : (p.lockLeft).aside = p.aside := by
  unfold Part.lockLeft
  (repeat' split) <;> simp

@[simp] theorem Part.lockEntered_aside (p : Part) (jump : Bool) : (p.lockEntered jump).aside = p.aside := by
  unfold Part.lockEntered
  dsimp only
  (repeat' split) <;> simp

@[simp] theorem Part.dropCounts_aside (p : Part) : (p.dropCounts).aside = p.aside := by
  simp [Part.dropCounts]

@[simp] theorem Part.edsStandardChange_aside (p : Part) : (p.edsStandardChange).aside = p.aside := by
  simp [Part.edsStandardChange]

@[simp] theorem Part.edsCountingChange_aside (p : Part) : (p.edsCountingChange).aside = p.aside := by
  simp [Part.edsCountingChange]

@[simp] theorem Part.portAllStop_aside (p : Part) (d : DeckNo) : (p.portAllStop d).aside = p.aside := by
  unfold Part.portAllStop
  (repeat' split) <;> simp

@[simp] theorem Part.allStop_aside (p : Part) : (p.allStop).aside = p.aside := by
  unfold Part.allStop
  rw [Part.each_keeps Part.aside _ (fun d q => by simp)]
  simp

end Sys2Proof.Machine
end

