-- ==== Sys2Proof/Laws/Blocks.lean ====
section
/-! SUPPORT. What the chase, the tape positions, the marks and the deck ports never touch: the RTU, the source
inputs and the console; and that the work of a field start leaves the RTU as the field start left it. -/

namespace Sys2Proof.Machine

open Sys2Proof

/-! ## Marks -/

@[simp] theorem Part.pushMark_aside (p : Part) (m : Mark) : (p.pushMark m).aside = p.aside := by
  unfold Part.pushMark
  dsimp only
  split <;> simp

@[simp] theorem Part.clearMarks_aside (p : Part) : p.clearMarks.aside = p.aside := by
  simp [Part.clearMarks]

@[simp] theorem Part.capture_aside (p : Part) (d : DeckNo) (g : Fin 4) : (p.capture d g).aside = p.aside := by
  unfold Part.capture
  split <;> simp

/-! ## Chase -/

@[simp] theorem Part.loseChase_aside (p : Part) (d : DeckNo) (e : Int) (r : Reason) :
    (p.loseChase d e r).aside = p.aside := by
  simp [Part.loseChase]

@[simp] theorem Part.computeWith_aside (p : Part) (d r : DeckNo) : (p.computeWith d r).aside = p.aside := by
  unfold Part.computeWith
  dsimp only
  (repeat' split) <;> simp

@[simp] theorem Part.compute_aside (p : Part) (d : DeckNo) : (p.compute d).aside = p.aside := by
  unfold Part.compute
  (repeat' split) <;> simp

@[simp] theorem Part.positionMeasured_aside (p : Part) (d : DeckNo) : (p.positionMeasured d).aside = p.aside := by
  unfold Part.positionMeasured
  (repeat' split) <;> simp

@[simp] theorem Part.computeHeld_aside (p : Part) (d : DeckNo) : (p.computeHeld d).aside = p.aside := by
  unfold Part.computeHeld
  dsimp only
  (repeat' split) <;> simp

@[simp] theorem Part.loseStale_aside (p : Part) (d : DeckNo) : (p.loseStale d).aside = p.aside := by
  unfold Part.loseStale
  split <;> simp

@[simp] theorem Part.positionStale_aside (p : Part) (d : DeckNo) : (p.positionStale d).aside = p.aside := by
  unfold Part.positionStale
  split
  · exact Part.each_keeps Part.aside _ (fun d q => by simp) _ _
  · simp

/-! ## Positions and measurements -/

@[simp] theorem Part.judgeStale_aside (p : Part) (d : DeckNo) : (p.judgeStale d).aside = p.aside := by
  unfold Part.judgeStale
  split <;> simp

@[simp] theorem Part.advanceRecord_aside (p : Part) (d : DeckNo) : (p.advanceRecord d).aside = p.aside := by
  simp [Part.advanceRecord]

@[simp] theorem Part.signalAdvance_aside (p : Part) (d : DeckNo) : (p.signalAdvance d).aside = p.aside := by
  unfold Part.signalAdvance
  split <;> simp

@[simp] theorem Part.useVitc_aside (p : Part) (d : DeckNo) (x f : Nat) : (p.useVitc d x f).aside = p.aside := by
  unfold Part.useVitc
  dsimp only
  split <;> simp

@[simp] theorem Part.vitcMeasurement_aside (p : Part) (d : DeckNo) (x : Reading) :
    (p.vitcMeasurement d x).aside = p.aside := by
  unfold Part.vitcMeasurement
  split <;> simp

@[simp] theorem Part.useDeckReply_aside (p : Part) (d : DeckNo) (x f : Nat) (src : TcSource) :
    (p.useDeckReply d x f src).aside = p.aside := by
  unfold Part.useDeckReply
  dsimp only
  split <;> simp

@[simp] theorem Part.deckMeasurement_aside (p : Part) (d : DeckNo) (l : RawLabel) (src : TcSource) (f : Nat) :
    (p.deckMeasurement d l src f).aside = p.aside := by
  unfold Part.deckMeasurement
  (repeat' split) <;> simp

@[simp] theorem Part.countingChanged_aside (p : Part) : p.countingChanged.aside = p.aside :=
  Part.clearMarks_aside { p with decks := p.decks.map Deck.countingChanged }

@[simp] theorem Part.standardChangeEvent_aside (p : Part) : p.standardChangeEvent.aside = p.aside := by
  simp [Part.standardChangeEvent]

/-! ## Deck ports -/

@[simp] theorem Part.sendItem_aside (p : Part) (d : DeckNo) (i : Item) : (p.sendItem d i).aside = p.aside := by
  simp [Part.sendItem]

@[simp] theorem Part.arbitrate_aside (p : Part) (d : DeckNo) : (p.arbitrate d).aside = p.aside := by
  unfold Part.arbitrate
  (repeat' split) <;> simp

@[simp] theorem Part.countDown_aside (p : Part) (d : DeckNo) : (p.countDown d).aside = p.aside := by
  simp [Part.countDown]

@[simp] theorem Part.timeoutNotices_aside (p : Part) (x y : LineState) : (p.timeoutNotices x y).aside = p.aside := by
  unfold Part.timeoutNotices
  (repeat' split) <;> simp

@[simp] theorem Part.timeout_aside (p : Part) (d : DeckNo) : (p.timeout d).aside = p.aside := by
  unfold Part.timeout
  extract_lets before q after r
  have hr : r.aside = p.aside := by simp [r, q]
  split
  · split
    · exact hr
    · simp [hr]
  · simp [hr]

@[simp] theorem Part.judgeDeadline_aside (p : Part) (d : DeckNo) : (p.judgeDeadline d).aside = p.aside := by
  unfold Part.judgeDeadline
  split <;> simp

@[simp] theorem Part.atSlotLine_aside (p : Part) (d : DeckNo) : (p.atSlotLine d).aside = p.aside := by
  simp [Part.atSlotLine]

@[simp] theorem Part.replyNotices_aside (p : Part) (x : LineState) (r : DeckReply) :
    (p.replyNotices x r).aside = p.aside := by
  unfold Part.replyNotices
  extract_lets q
  have hq : q.aside = p.aside := by
    simp only [q]
    split
    · simp
    · rfl
  split
  · simp [hq]
  · exact hq

@[simp] theorem Part.goodReply_aside (p : Part) (d : DeckNo) (x : Flight) (r : DeckReply) :
    (p.goodReply d x r).aside = p.aside := by
  unfold Part.goodReply
  extract_lets before q s
  have hs : s.aside = p.aside := by simp [s, q]
  have hc : (s.lineChanged d).aside = p.aside := by simp [hs]
  rw [apply_ite Part.aside, hs, hc, ite_self]

/-! ## The RTU under the work of a field start -/

/-- What keeps the blocks beside the EDS keeps the RTU. -/
theorem Part.rtu_of_aside {p q : Part} (h : q.aside = p.aside) : q.rtu = p.rtu := congrArg Prod.fst h

/-- What keeps the blocks beside the EDS keeps the console. -/
theorem Part.gtu_of_aside {p q : Part} (h : q.aside = p.aside) : q.gtu = p.gtu :=
  congrArg (fun x => x.2.2) h

/-- What keeps the blocks beside the EDS keeps the source inputs. -/
theorem Part.sius_of_aside {p q : Part} (h : q.aside = p.aside) : q.sius = p.sius :=
  congrArg (fun x => x.2.1) h

@[simp] theorem FieldCtx.handEdge_rtu (x : FieldCtx) (g : Gpi) (n : Fin 4) :
    (x.handEdge g n).part.rtu = x.part.rtu := by
  unfold FieldCtx.handEdge
  split
  · rfl
  · split
    · exact Part.rtu_of_aside (by simp)
    · rfl
  · exact Part.rtu_of_aside (by simp)
  · exact Part.rtu_of_aside (by simp)

@[simp] theorem FieldCtx.judgeEdge_rtu (x : FieldCtx) (n : Fin 4) :
    (x.judgeEdge n).part.rtu = x.part.rtu := by
  unfold FieldCtx.judgeEdge
  dsimp only
  (repeat' split) <;> simp

@[simp] theorem FieldCtx.releaseHeld_rtu (x : FieldCtx) (d : DeckNo) :
    (x.releaseHeld d).part.rtu = x.part.rtu := by
  unfold FieldCtx.releaseHeld
  dsimp only
  generalize x.part = p
  induction x.held.filter (fun h => h.1 == d) generalizing p with
  | nil => rfl
  | cons h hs ih => exact (ih _).trans (Part.rtu_of_aside (by simp))

@[simp] theorem FieldCtx.computeReady_rtu (x : FieldCtx) (d : DeckNo) : (x.computeReady d).part.rtu = x.part.rtu := by
  unfold FieldCtx.computeReady
  split
  · exact Part.rtu_of_aside (by simp)
  · rfl

@[simp] theorem FieldCtx.react_rtu (x : FieldCtx) (d : DeckNo) (r : Reaction) : (x.react d r).part.rtu = x.part.rtu := by
  cases r with
  | sequencer => exact Part.rtu_of_aside (Part.signalAdvance_aside x.part d)
  | captures => exact FieldCtx.releaseHeld_rtu x d
  | chase e => exact FieldCtx.computeReady_rtu x e

/-- What waits for an advance leaves the RTU alone, in whatever order it is done. -/
theorem FieldCtx.reacts_rtu (d : DeckNo) (rs : List Reaction) (x : FieldCtx) :
    (rs.foldl (fun y r => y.react d r) x).part.rtu = x.part.rtu := by
  induction rs generalizing x with
  | nil => rfl
  | cons r rs ih => exact (ih _).trans (x.react_rtu d r)

@[simp] theorem FieldCtx.work_rtu (began : Phase) (x : FieldCtx) (w : FieldWork) :
    (x.work began w).part.rtu = x.part.rtu := by
  cases w with
  | advance d first => exact (FieldCtx.reacts_rtu d _ _).trans (Part.rtu_of_aside (Part.advanceRecord_aside x.part d))
  | cueTimers =>
    simp only [FieldCtx.work]
    split
    · exact Part.rtu_of_aside (by simp)
    · rfl
  | rollPlays =>
    simp only [FieldCtx.work]
    exact Part.each_keeps Part.rtu _ (fun d q => Part.rtu_of_aside (by simp)) _ _
  | postroll =>
    simp only [FieldCtx.work]
    split
    · exact Part.rtu_of_aside (by simp)
    · rfl
  | guard =>
    simp only [FieldCtx.work]
    exact Part.rtu_of_aside (by simp)
  | autoTake => rfl
  | gpi n => simp [FieldCtx.work]

/-- The work of a field start leaves the RTU alone. -/
@[simp] theorem Part.fieldWork_rtu (p : Part) (asked : List FieldWork) : (p.fieldWork asked).rtu = p.rtu := by
  unfold Part.fieldWork
  suffices h : ∀ (ws : List FieldWork) (x : FieldCtx),
      (ws.foldl (FieldCtx.work p.eds.phase) x).part.rtu = x.part.rtu from h _ _
  intro ws
  induction ws with
  | nil => intro x; rfl
  | cons w ws ih => intro x; exact (ih _).trans (FieldCtx.work_rtu _ x w)

end Sys2Proof.Machine
end

