-- ==== Sys2Proof/Laws/Clock.lean ====
section
/-! SUPPORT. Time and order: what a luma sample period counts, which output line begins at an instant, the rows that
fall due there, where a reference arrives, and the order of a field start's work. -/

namespace Sys2Proof.Machine

open Sys2Proof

/-! ## A luma sample period -/

@[simp] theorem Part.tick_rtu (p : Part) : p.tick.rtu = p.rtu.ticked := rfl

@[simp] theorem Part.tick_siu (p : Part) (i : Input) :
    p.tick.siu i = (p.siu i).ticked p.rtu.ticked.outputLineStart := by
  simp [Part.tick, Part.siu]

@[simp] theorem Part.tick_port (p : Part) (d : DeckNo) : p.tick.port d = (p.port d).ticked := by
  simp [Part.tick, Part.port]

@[simp] theorem Rtu.ticked_timing (r : Rtu) : r.ticked.timing = { r.timing with elapsed := r.timing.elapsed + 1 } := rfl
@[simp] theorem Rtu.ticked_quiet (r : Rtu) : r.ticked.quiet = r.quiet.map (· + 1) := rfl
@[simp] theorem Rtu.ticked_silence (r : Rtu) : r.ticked.silence = r.silence.map (· + 1) := rfl
@[simp] theorem Rtu.ticked_lock (r : Rtu) : r.ticked.lock = r.lock := rfl
@[simp] theorem Rtu.ticked_std (r : Rtu) : r.ticked.std = r.std := rfl
@[simp] theorem Rtu.ticked_candidate (r : Rtu) : r.ticked.candidate = r.candidate := rfl
@[simp] theorem Rtu.ticked_run (r : Rtu) : r.ticked.run = r.run := rfl
@[simp] theorem Rtu.ticked_miss (r : Rtu) : r.ticked.miss = r.miss := rfl
@[simp] theorem Rtu.ticked_fieldId (r : Rtu) : r.ticked.fieldId = r.fieldId := rfl
@[simp] theorem Rtu.ticked_fieldCount (r : Rtu) : r.ticked.fieldCount = r.fieldCount := rfl
@[simp] theorem Rtu.ticked_refField (r : Rtu) : r.ticked.refField = r.refField := rfl

@[simp] theorem Siu.ticked_quiet (s : Siu) (b : Option OutputField) : (s.ticked b).quiet = s.quiet + 1 := rfl
@[simp] theorem Siu.ticked_state (s : Siu) (b : Option OutputField) : (s.ticked b).state = s.state := rfl
@[simp] theorem Siu.ticked_clean (s : Siu) (b : Option OutputField) : (s.ticked b).clean = s.clean := rfl
@[simp] theorem Siu.ticked_matchedField (s : Siu) (b : Option OutputField) : (s.ticked b).matchedField = s.matchedField := rfl
@[simp] theorem Siu.ticked_judging (s : Siu) (b : Option OutputField) : (s.ticked b).judging = s.judging := rfl
@[simp] theorem Siu.ticked_store (s : Siu) (b : Option OutputField) : (s.ticked b).store = s.store := rfl
@[simp] theorem Siu.ticked_storedFor (s : Siu) (b : Option OutputField) (field line : Nat) :
    (s.ticked b).storedFor field line = s.storedFor field line := rfl

/-- Only the time of the frame on the line counts in a port. -/
@[simp] theorem Port.ticked_sending (q : Port) : q.ticked.sending = q.sending := by
  unfold Port.ticked
  split <;> rfl

@[simp] theorem Port.ticked_flight (q : Port) : q.ticked.flight = q.flight := by
  unfold Port.ticked
  split <;> rfl

@[simp] theorem Port.ticked_slotLine (q : Port) : q.ticked.slotLine = q.slotLine := by
  unfold Port.ticked
  split <;> rfl

@[simp] theorem Part.tick_pku (p : Part) : p.tick.pku = p.pku := rfl
@[simp] theorem Part.tick_tcu (p : Part) : p.tick.tcu = p.tcu := rfl
@[simp] theorem Part.tick_deck (p : Part) (d : DeckNo) : p.tick.deck d = p.deck d := rfl
@[simp] theorem Part.tick_chu (p : Part) : p.tick.chu = p.chu := rfl
@[simp] theorem Part.tick_eds (p : Part) : p.tick.eds = p.eds := rfl
@[simp] theorem Part.tick_mep (p : Part) : p.tick.mep = p.mep := rfl
@[simp] theorem Part.tick_gtu (p : Part) : p.tick.gtu = p.gtu := rfl

/-- With no command waiting a step is the idle one. -/
theorem step_nil (p : Part) : step { part := p, pending := [] } = .next { part := p.tick, pending := p.tick.dueEvents } :=
  rfl

/-- With a command waiting a step is its effect on the rest. -/
theorem step_cons (p : Part) (c : Instr) (rest : List Instr) :
    step { part := p, pending := c :: rest } = exec c { part := p, pending := rest } := rfl

/-! ## Output lines -/

/-- Line n of an output field begins n + 1 line periods after its field start. -/
theorem OutputField.lineBegins_line (f : OutputField) (n : Nat) (hn : 1 ≤ n) :
    (f.lineBegins = true ∧ f.line = n) ↔ f.since = (n + 1) * f.lineLen := by
  have hlen : 0 < f.lineLen := by cases h : f.std <;> simp [OutputField.lineLen, Config.lineLen, h]
  simp only [OutputField.lineBegins, OutputField.line, beq_iff_eq]
  constructor
  · rintro ⟨h1, h2⟩
    have h3 := Nat.div_add_mod f.since f.lineLen
    have h4 : f.since / f.lineLen = n + 1 := by omega
    rw [h1, h4, Nat.mul_comm] at h3
    omega
  · intro h
    rw [h]
    exact ⟨Nat.mul_mod_left _ _, by rw [Nat.mul_div_cancel _ hlen]; omega⟩

/-- The output field of which a line begins at this instant. -/
theorem Rtu.outputLineStart_eq_some (r : Rtu) (f : OutputField) :
    r.outputLineStart = some f ↔
      r.outputField = some f ∧ f.since = (f.line + 1) * f.lineLen ∧ f.hasLine f.line = true := by
  simp only [Rtu.outputLineStart, Option.filter_eq_some_iff, Bool.and_eq_true]
  constructor
  · rintro ⟨h, hb, hl⟩
    exact ⟨h, (f.lineBegins_line _ (of_decide_eq_true hl).1).1 ⟨hb, rfl⟩, hl⟩
  · rintro ⟨h, hs, hl⟩
    exact ⟨h, ((f.lineBegins_line _ (of_decide_eq_true hl).1).2 hs).1, hl⟩

/-- Just after a tick, the look-up of an SIU for the line that begins is its store's (R47). -/
theorem Siu.ticked_lookUpFor (s : Siu) (f : OutputField) :
    ((s.ticked (some f)).lookUpFor f.count f.line) = s.look f.count f.line := by
  simp [Siu.lookUpFor, Siu.ticked, Siu.look]

/-! ## Rows that fall due -/

theorem mem_allInputs (i : Input) : i ∈ allInputs := by cases i <;> decide

/-- The store slips that fall due are those of the line that begins, for each input that cannot supply it (R47). -/
theorem Part.mem_slipEvents (p : Part) (c : Instr) :
    c ∈ p.slipEvents ↔
      ∃ i f, c = .storeSlip i f.line ∧ p.rtu.outputLineStart = some f ∧ (p.siu i).slips f.count f.line = true := by
  unfold Part.slipEvents
  cases h : p.rtu.outputLineStart with
  | none => simp
  | some f =>
    simp only [List.mem_map, List.mem_filter, Option.some.injEq]
    constructor
    · rintro ⟨i, ⟨-, hi⟩, rfl⟩
      exact ⟨i, f, rfl, rfl, hi⟩
    · rintro ⟨i, g, rfl, rfl, hi⟩
      exact ⟨i, ⟨mem_allInputs i, hi⟩, rfl⟩

theorem mem_allDecks (d : DeckNo) : d ∈ allDecks := by
  fin_cases d <;> decide

/-- The frames that end (R89). -/
theorem Part.mem_sendEndEvents (p : Part) (c : Instr) :
    c ∈ p.sendEndEvents ↔ ∃ d, c = .frameSendEnd d ∧ (p.port d).sendEndDue = true := by
  simp only [Part.sendEndEvents, List.mem_map, List.mem_filter]
  exact ⟨fun ⟨d, ⟨_, h⟩, e⟩ => ⟨d, e.symm, h⟩, fun ⟨d, e, h⟩ => ⟨d, ⟨mem_allDecks d, h⟩, e.symm⟩⟩

/-- The judgements of silence that fall due (R2, R42). -/
theorem Part.mem_silenceEvents (p : Part) (c : Instr) :
    c ∈ p.silenceEvents ↔ (c = .silenceJudgement ∧ p.rtu.silenceDue = true)
      ∨ (∃ i, c = .inputSilenceBad i ∧ (p.siu i).silenceDue = true)
      ∨ ∃ i, c = .inputNoSignal i ∧ (p.siu i).noSignalDue p.rtu.std = true := by
  have one {P : Prop} [Decidable P] {x : Instr} : c ∈ (if P then [x] else []) ↔ c = x ∧ P := by
    by_cases h : P <;> simp [h]
  have all {f : Input → Instr} {q : Input → Bool} : c ∈ (allInputs.filter q).map f ↔ ∃ i, c = f i ∧ q i = true := by
    simp only [List.mem_map, List.mem_filter]
    exact ⟨fun ⟨i, ⟨_, h⟩, e⟩ => ⟨i, e.symm, h⟩, fun ⟨i, e, h⟩ => ⟨i, ⟨mem_allInputs i, h⟩, e.symm⟩⟩
  simp only [Part.silenceEvents, List.mem_append, one, all, or_assoc]

/-- When a silence judgement of REF falls due (R2). -/
theorem Rtu.silenceDue_iff (r : Rtu) :
    r.silenceDue = true ↔
      (∃ n, r.quiet = some n ∧ silenceSpan ≤ n) ∨ ∃ n, r.silence = some n ∧ longerField r.std ≤ n := by
  simp [Rtu.silenceDue, Option.any_eq_true]

/-- A silence judgement takes a span that has ended, and begins the longer-field period (R2). -/
@[simp] theorem Rtu.silenceJudged_silence (r : Rtu) : r.silenceJudged.silence = some 0 := rfl

theorem Rtu.silenceJudged_quiet (r : Rtu) (n : Nat) :
    r.silenceJudged.quiet = some n ↔ r.quiet = some n ∧ n < silenceSpan := by
  simp [Rtu.silenceJudged, Option.filter_eq_some_iff]

/-! ## The arrival of a reference -/

@[simp] theorem Part.arrivingAt_rtu (p : Part) (n : Nat) :
    (p.arrivingAt n).rtu = { p.rtu with timing := { p.rtu.timing with elapsed := n } } := rfl

/-- A reference that arrives at the present count moves nothing. -/
theorem Part.arrivingAt_now (p : Part) : p.arrivingAt p.rtu.timing.elapsed = p := rfl

/-! ## A chase computation at a field start -/

/-- A measured signal of a deck that is not chasing makes nothing (R107, R108, R114). -/
theorem Part.positionMeasured_idle (p : Part) (d : DeckNo) (h : (p.deck d).chase.state.computing = false) :
    p.positionMeasured d = p := by
  simp [Part.positionMeasured, h]

/-- A measured signal of a chasing deck is held where the next field start is due, and computed at once elsewhere
(R108). -/
theorem Part.positionMeasured_chasing (p : Part) (d : DeckNo) (h : (p.deck d).chase.state.computing = true) :
    p.positionMeasured d
      = if p.rtu.fieldStartDue then p.modChase d (fun o => { o with pending := true }) else p.compute d := by
  simp [Part.positionMeasured, h]

/-- A deck that holds no computation makes none at a field start (R108). -/
theorem Part.computeHeld_none (p : Part) (d : DeckNo) (h : (p.chu.own.get d).pending = false) : p.computeHeld d = p := by
  simp [Part.computeHeld, h]

/-- A held computation is no longer held, and is made where the deck is still chasing (R108). -/
theorem Part.computeHeld_made (p : Part) (d : DeckNo) (h : (p.chu.own.get d).pending = true)
    (hc : (p.deck d).chase.state.computing = true) :
    p.computeHeld d = (p.modChase d (fun o => { o with pending := false })).compute d := by
  simp [Part.computeHeld, h, hc]

/-- A held computation waits for the advance of the deck's own record (R108). -/
theorem FieldCtx.computeReady_waits (x : FieldCtx) (d : DeckNo) (h : d ∉ x.advanced) : x.computeReady d = x := by
  simp [FieldCtx.computeReady, h]

/-- With both records advanced a held computation is made (R108). -/
theorem FieldCtx.computeReady_made (x : FieldCtx) (d r : DeckNo) (hr : x.part.recorder = some r) (hd : d ∈ x.advanced)
    (h : r ∈ x.advanced) : x.computeReady d = { x with part := x.part.computeHeld d } := by
  simp [FieldCtx.computeReady, hr, hd, h]

/-- It waits for the advance of the recorder's record too (R108). -/
theorem FieldCtx.computeReady_waits_recorder (x : FieldCtx) (d r : DeckNo) (hr : x.part.recorder = some r)
    (h : r ∉ x.advanced) : x.computeReady d = x := by
  simp [FieldCtx.computeReady, hr, h]

/-! ## The order of a field start's work -/

/-- What is kept is what was there, no key is kept twice, and none that was seen before. -/
theorem withoutRepeats_spec {α : Type} [DecidableEq α] (key : α → α) (seen ws : List α) :
    ((withoutRepeats key seen ws).map key).Nodup
    ∧ (∀ w ∈ withoutRepeats key seen ws, w ∈ ws ∧ key w ∉ seen)
    ∧ ∀ w ∈ ws, key w ∉ seen → key w ∈ (withoutRepeats key seen ws).map key := by
  induction ws generalizing seen with
  | nil => simp [withoutRepeats]
  | cons x xs ih =>
    unfold withoutRepeats
    split
    · rename_i h
      obtain ⟨h1, h2, h3⟩ := ih seen
      refine ⟨h1, fun w hw => ⟨List.mem_cons_of_mem _ (h2 w hw).1, (h2 w hw).2⟩, ?_⟩
      intro w hw hn
      rcases List.mem_cons.1 hw with rfl | hw
      · exact absurd h hn
      · exact h3 w hw hn
    · rename_i h
      obtain ⟨h1, h2, h3⟩ := ih (key x :: seen)
      refine ⟨?_, ?_, ?_⟩
      · rw [List.map_cons, List.nodup_cons]
        refine ⟨?_, h1⟩
        intro hx
        obtain ⟨w, hw, e⟩ := List.mem_map.1 hx
        exact (h2 w hw).2 (e ▸ List.mem_cons_self ..)
      · intro w hw
        rcases List.mem_cons.1 hw with rfl | hw
        · exact ⟨List.mem_cons_self .., h⟩
        · exact ⟨List.mem_cons_of_mem _ (h2 w hw).1, fun hs => (h2 w hw).2 (List.mem_cons_of_mem _ hs)⟩
      · intro w hw hn
        by_cases e : key w = key x
        · rw [e]
          exact List.mem_cons_self ..
        · rcases List.mem_cons.1 hw with rfl | hw
          · exact absurd rfl e
          · exact List.mem_cons_of_mem _ (h3 w hw (by simp [e, hn]))

/-- Whatever order is asked for, each piece of work is done once. -/
theorem workOrder_spec (asked : List FieldWork) :
    ((workOrder asked).map FieldWork.piece).Nodup
    ∧ ∀ w ∈ defaultWork, w.piece ∈ (workOrder asked).map FieldWork.piece := by
  obtain ⟨h1, -, h3⟩ := withoutRepeats_spec FieldWork.piece [] (asked ++ defaultWork)
  exact ⟨h1, fun w hw => h3 w (List.mem_append_right _ hw) (by simp)⟩

/-- Whatever is asked for first, each thing that waits for an advance is done once. -/
theorem reactionOrder_spec (first : List Reaction) :
    (reactionOrder first).Nodup ∧ ∀ r ∈ defaultReactions, r ∈ reactionOrder first := by
  obtain ⟨h1, -, h3⟩ := withoutRepeats_spec id [] (first ++ defaultReactions)
  rw [List.map_id] at h1 h3
  exact ⟨h1, fun r hr => h3 r (List.mem_append_right _ hr) (by simp)⟩

end Sys2Proof.Machine
end

