-- ==== Sys2Proof/Laws/Lines.lean ====
section
/-! SUPPORT. The lines of the pictures and of the decks: what an SIU supplies is legal and stays for its whole line, what
a transmit line carries, and where receiving begins. -/

namespace Sys2Proof.Machine

open Sys2Proof

/-! ## What an SIU supplies (R46 to R48) -/

theorem clampCode_legal (v : Nat) : 4 ≤ clampCode v ∧ clampCode v ≤ 1019 := by
  unfold clampCode clampTo
  split <;> [skip; split] <;> omega

/-- Every sample that an SIU supplies is legal, whatever its store holds (R48, R153). -/
theorem Siu.supplies_legal (s : Siu) (field line v : Nat) :
    (v ∈ (s.supplies field line).luma ∨ v ∈ (s.supplies field line).cb ∨ v ∈ (s.supplies field line).cr) →
    4 ≤ v ∧ v ≤ 1019 := by
  have mapped {xs : List Nat} (h : v ∈ xs.map clampCode) : 4 ≤ v ∧ v ≤ 1019 := by
    obtain ⟨w, -, rfl⟩ := List.mem_map.1 h
    exact clampCode_legal w
  have same {n k : Nat} (h : v ∈ List.replicate n k) (hk : 4 ≤ k ∧ k ≤ 1019) : 4 ≤ v ∧ v ≤ 1019 :=
    List.eq_of_mem_replicate h ▸ hk
  unfold Siu.supplies
  split
  · exact fun h => h.elim mapped (·.elim mapped mapped)
  · exact fun h => h.elim (same · (by decide)) (·.elim (same · (by decide)) (same · (by decide)))

/-- A look-up that is held decides its line, whatever comes into the store or leaves it (R47). -/
@[simp] theorem Siu.hold_lookUpFor (s : Siu) (l : LookUp) : (s.hold l).lookUpFor l.field l.line = l := by
  simp [Siu.hold, Siu.lookUpFor]

/-- A line that arrives leaves every look-up that is held as it is (R47). -/
@[simp] theorem Siu.storeLine_lookedUp (s : Siu) (std : Standard) (v : VideoLine) :
    (s.storeLine std v).lookedUp = s.lookedUp := rfl

/-! ## The serial lines (R89) -/

/-- With no frame to send, the transmit line is at the stop-bit level and the direction output at receive. -/
theorem Port.idle_line (q : Port) (h : q.sending = []) : q.transmitLevel = true ∧ q.drives = false := by
  simp [Port.transmitLevel, Port.drives, h]

/-- A reset leaves every transmit line at the stop-bit level, also where it cuts a frame short. -/
theorem Part.reset_line (cause : ResetCause) (d : DeckNo) :
    ((Part.reset cause).port d).transmitLevel = true ∧ ((Part.reset cause).port d).drives = false := by
  fin_cases d <;> exact ⟨rfl, rfl⟩

/-- While the port sends, no bit is taken in. -/
theorem State.receiveDeckBit_sending (s : State) (d : DeckNo) (level : Bool) (h : (s.part.port d).drives = true) :
    s.receiveDeckBit d level = s.withIncoming d none := by
  simp [State.receiveDeckBit, h]

/-- A byte on a deck line is eleven bits, a start bit before them and a stop bit behind. -/
@[simp] theorem serialBits_length (b : Byte) : (serialBits b).length = 11 := by simp [serialBits]

/-- A frame on a deck line is eleven bits a byte. -/
@[simp] theorem Frame.bits_length (f : Frame) : f.bits.length = 11 * f.bytes.length := by
  unfold Frame.bits
  induction f.bytes with
  | nil => rfl
  | cons b bs ih => simp [List.flatMap_cons, ih]; omega

/-- The frame on the line ends when the time of its bits has passed. -/
theorem Port.sendEndDue_iff (q : Port) :
    q.sendEndDue = true ↔
      ∃ f rest, q.sending = f :: rest ∧ bitSixteenths * (11 * f.bytes.length) ≤ 16 * q.sent := by
  cases h : q.sending <;> simp [Port.sendEndDue, h]

/-- The end of a frame takes it from the line; with none there it changes nothing. -/
theorem Port.sendEnd_spec (q : Port) :
    (q.sending = [] → q.sendEnd = q)
    ∧ ∀ f rest, q.sending = f :: rest → q.sendEnd = { q with sending := rest, sent := 0, incoming := none } := by
  refine ⟨fun h => by simp [Port.sendEnd, Port.drives, h], fun f rest h => by simp [Port.sendEnd, Port.drives, h]⟩

/-- At the end of a frame receiving begins afresh. -/
theorem Port.sendEnd_incoming (q : Port) (h : q.drives = true) : q.sendEnd.incoming = none := by
  simp [Port.sendEnd, h]

end Sys2Proof.Machine
end

