-- ==== Sys2Proof/Laws/Ops.lean ====
section
/-! SUPPORT. The shared operations, each said once: how a command ends, bytes of numbers, clamping and structural checks,
notices, demands, marks, the entry into IDLE and the endings of an event, the preload's ownership, and the
arithmetic of counts. -/

namespace Sys2Proof.Machine

open Sys2Proof

/-! ## How a command ends -/

/-- A command that changes the part answers next, with the queue as it was. -/
theorem ran_eq (s : State) (p : Part) : ran s p = .next { part := p, pending := s.pending } := rfl

/-- A dispatched host command answers next: its owner's effect, one reply at the end of the list being built,
the queue as it was. -/
theorem dispatched_eq (s : State) (k o : Nat) (r : Part × Answer) :
    dispatched s k o r = .next { part := r.1.reply k o r.2, pending := s.pending } := rfl

/-- One reply joins the end of the list being built. -/
theorem Part.reply_building (p : Part) (k o : Nat) (a : Answer) :
    (p.reply k o a).pku.building = p.pku.building ++ [replyOf k o a] := rfl

/-! ## Bytes of numbers -/

/-- The byte of an integer modulo 256. -/
theorem byteOf_mod (v : Int) : byteOf (v % 256).toNat = BitVec.ofInt 8 v := by
  apply BitVec.eq_of_toNat_eq
  have h : (v % 256).toNat < 256 := by omega
  simp [byteOf, BitVec.toNat_ofInt, Nat.mod_eq_of_lt h]

/-- The byte of a natural number, as an integer's. -/
theorem byteOf_ofInt (v : Nat) : byteOf v = BitVec.ofInt 8 v := by simp [byteOf]

/-- The byte of a truth value, as an integer's. -/
theorem flagByte_ofInt (b : Bool) : flagByte b = BitVec.ofInt 8 (if b then 1 else 0) := by cases b <;> rfl

/-- The byte of a number is a number of one byte. -/
theorem numBytes_one (v : Int) : numBytes 1 v = [BitVec.ofInt 8 v] := by
  simp [numBytes, byteOf_mod]

/-- A number in two bytes, most significant byte first. -/
theorem numBytes_two (v : Int) : numBytes 2 v = [BitVec.ofInt 8 (v / 256), BitVec.ofInt 8 v] := by
  simp [numBytes, List.range_succ, byteOf_mod]

/-- A number in three bytes, most significant byte first. -/
theorem numBytes_three (v : Int) :
    numBytes 3 v = [BitVec.ofInt 8 (v / 65536), BitVec.ofInt 8 (v / 256), BitVec.ofInt 8 v] := by
  simp [numBytes, List.range_succ, byteOf_mod]

/-! ## Clamping and checks -/

/-- A clamped value lies in its range. -/
theorem clampTo_bounds {lo hi : Nat} (h : lo ≤ hi) (v : Nat) : lo ≤ clampTo lo hi v ∧ clampTo lo hi v ≤ hi := by
  unfold clampTo
  split
  · omega
  · split <;> omega

/-- A value in its range is not changed by clamping. -/
theorem clampTo_of_bounds {lo hi v : Nat} (h1 : lo ≤ v) (h2 : v ≤ hi) : clampTo lo hi v = v := by
  unfold clampTo
  split
  · omega
  · split <;> omega

/-- A clamped integer lies in its range. -/
theorem clampInt_bounds {lo hi : Int} (h : lo ≤ hi) (v : Int) : lo ≤ clampInt lo hi v ∧ clampInt lo hi v ≤ hi := by
  unfold clampInt
  split
  · omega
  · split <;> omega

/-- No check fails exactly when all hold. -/
theorem firstBad_eq_none {cs : List (Nat × Bool)} : firstBad cs = none ↔ ∀ c ∈ cs, c.2 = true := by
  induction cs with
  | nil => simp [firstBad]
  | cons c cs ih =>
    obtain ⟨n, ok⟩ := c
    cases ok <;> simp [firstBad, ih]

/-- An accepted command of tuning numbers is answered ACCEPTED or CLAMPED. -/
theorem Answer.taken_result (ts : List Tuning) :
    (Answer.taken ts).result = if clampedNumbers ts = [] then .accepted else .clamped := by
  unfold Answer.taken
  split <;> simp_all [Answer.accepted]

/-! ## Notices -/

/-- The notice that is raised is set. -/
theorem Part.raise_noticeSet (p : Part) (n : Notice) : (p.raise n).noticeSet n = true := by
  cases n <;> simp [Part.raise, Part.noticeSet, Part.modPku, Notice.mask, Notice.bit]

/-- Every other notice keeps its state. -/
theorem Part.raise_noticeSet_ne (p : Part) {n m : Notice} (h : m ≠ n) : (p.raise n).noticeSet m = p.noticeSet m := by
  have hb : m.bit < 18 := by cases m <;> decide
  have hne : m.bit ≠ n.bit := by
    intro e
    apply h
    revert e
    cases m <;> cases n <;> decide
  simp only [Part.raise, Part.noticeSet, Part.modPku, Notice.mask, BitVec.getLsbD_or, BitVec.getLsbD_shiftLeft]
  have hn : n.bit < 18 := by cases n <;> decide
  by_cases hl : m.bit < n.bit
  · simp [hl]
  · have : m.bit - n.bit ≠ 0 := by omega
    simp [hb, hl, BitVec.getLsbD_one, this]

/-! ## Demands -/

/-- A write of the wanted transport: the demand, and the direct hold cleared. -/
theorem Part.wantTransport_spec (p : Part) (d : DeckNo) (w : Want) :
    (p.wantTransport d w).deck d = { p.deck d with want := w }
    ∧ (p.wantTransport d w).port d = { p.port d with directHold := false } := by
  constructor
  · simp [Part.wantTransport]
  · exact Part.modPort_port_self _ _ _

/-- A write of the wanted transport leaves the other decks alone. -/
theorem Part.wantTransport_other (p : Part) {d e : DeckNo} (w : Want) (h : e ≠ d) :
    (p.wantTransport d w).deck e = p.deck e ∧ (p.wantTransport d w).port e = p.port e := by
  constructor
  · exact Part.modDeck_deck_ne p _ h
  · exact Part.modPort_port_ne _ _ h

/-! ## Marks -/

/-- A push leaves at most eight marks. -/
theorem pushedMarks_length (m : Mark) (ms : List Mark) : (pushedMarks m ms).length ≤ markDepth := by
  simp [pushedMarks, List.length_take]

/-- A push puts its mark on top. -/
theorem pushedMarks_head (m : Mark) (ms : List Mark) : (pushedMarks m ms).head? = some m := by
  simp [pushedMarks, markDepth]

/-! ## The engine -/

/-- What an entry into IDLE leaves (R132). -/
theorem Part.enterIdle_spec (p : Part) (keep : Bool) :
    (p.enterIdle keep).eds.phase = .idle ∧ (p.enterIdle keep).eds.active = none
    ∧ (p.enterIdle keep).eds.stopRequest = false ∧ (p.enterIdle keep).eds.holdWaiting = false
    ∧ (p.enterIdle keep).eds.guardRunning = false ∧ (p.enterIdle keep).eds.guardCount = 0
    ∧ (p.enterIdle keep).eds.latch = (p.eds.latch && keep)
    ∧ (p.enterIdle keep).eds.cursor = p.eds.cursor ∧ (p.enterIdle keep).eds.slots = p.eds.slots := by
  refine ⟨rfl, rfl, rfl, rfl, rfl, rfl, rfl, rfl, rfl⟩

/-- A failure with no event active does nothing; with one, the engine ends in IDLE. -/
theorem Part.failEvent_cases (p : Part) (r : Reason) :
    (p.eventActive = false ∧ p.failEvent r = p)
    ∨ (p.eventActive = true ∧ p.failEvent r = ((p.closeEvent .failed r).raise .eventFailed).disarmAll.endList) := by
  cases h : p.eventActive
  · exact .inl ⟨rfl, by simp [Part.failEvent, h]⟩
  · exact .inr ⟨rfl, by simp [Part.failEvent, h]⟩

/-- After a failure of an active event the engine is in IDLE with no slot active. -/
theorem Part.failEvent_idle (p : Part) (r : Reason) (h : p.eventActive = true) :
    (p.failEvent r).eds.phase = .idle ∧ (p.failEvent r).eds.active = none := by
  simp [Part.failEvent, h, Part.endList, Part.enterIdle]

/-- No slot is ARMED after every slot is disarmed. -/
theorem Slot.disarmed_state (s : Slot) : s.disarmed.state ≠ .armed := by
  unfold Slot.disarmed
  split
  · simp
  · assumption

/-! ## The preload's owner (R158, R159) -/

/-- A claim makes the EDS the owner and ends any take. -/
theorem Mep.claim_spec (m : Mep) (h : m.owner = .host → m.take = none) :
    m.claim.owner = .eds ∧ (m.owner ≠ .eds → m.claim.take = none) ∧ m.claim.held = m.claim.preload := by
  unfold Mep.claim
  cases ho : m.owner <;> simp_all [Mep.endTake]

/-- A release hands the preload back to the host at level 0; without a claim it does nothing. -/
theorem Mep.release_spec (m : Mep) :
    (m.owner = .eds → m.release = { m with preload := { m.held with level := 0 }, owner := .host })
    ∧ (m.owner ≠ .eds → m.release = m) := by
  unfold Mep.release
  cases m.owner <;> simp

/-! ## Counts -/

/-- The day holds fields. -/
theorem Counting.day_pos (c : Counting) : 0 < c.day := by
  obtain ⟨std, drop⟩ := c
  cases std <;> cases drop <;> decide

/-- A moved position lies within the day. -/
theorem moved_lt {day : Nat} (h : 0 < day) (position : Nat) (amount : Int) : moved day position amount < day := by
  unfold moved
  have h1 := Int.emod_nonneg ((position : Int) + amount / 256) (by omega : (day : Int) ≠ 0)
  have h2 := Int.emod_lt_of_pos ((position : Int) + amount / 256) (by omega : (0 : Int) < day)
  omega

end Sys2Proof.Machine
end

