-- ==== Sys2Proof/Laws/PerInstr.lean ====
section
/-! SUPPORT. The family of statements about every command as syntax: a well-formed host command's packet has
the length that its kind's operands occupy (R21, R37), and its kind is one of Table 2-8. -/

namespace Sys2Proof.Laws.PacketFits

open Sys2Proof Sys2Proof.Machine

/-- The packet of a well-formed host command passes the kind and length checks of R21. -/
def Statement (i : Instr) : Prop :=
  i.wellFormed = true → ∀ off kind payload, hostPacket i = some (off, kind, payload) →
    kind ∈ knownKinds ∧ payloadLength kind payload = some payload.length

/-- Numbers take the bytes asked for. -/
theorem numBytes_length (n : Nat) (v : Int) : (numBytes n v).length = n := by simp [numBytes]

/-- A command that is no packet satisfies the statement. -/
theorem of_event {i : Instr} (h : hostPacket i = none) : Statement i := by
  intro _ off kind payload hp
  rw [h] at hp
  exact absurd hp (by simp)

/-- A command with this packet satisfies the statement if the packet fits. -/
theorem of_packet {i : Instr} {o k : Nat} {bs : List Byte} (h : hostPacket i = some (o, k, bs))
    (hk : k ∈ knownKinds) (hl : payloadLength k bs = some bs.length) : Statement i := by
  intro _ off kind payload hp
  rw [h] at hp
  obtain ⟨rfl, rfl, rfl⟩ := by simpa using hp
  exact ⟨hk, hl⟩

theorem powerOn : Statement (.powerOn) := of_event rfl

theorem resetLine : Statement (.resetLine) := of_event rfl

theorem fieldStart (pins : BitVec 4) (order : List FieldWork) : Statement (.fieldStart pins order) := of_event rfl

theorem refFieldWellFormed (obs : FieldObs) (time : Nat) : Statement (.refFieldWellFormed obs time) := of_event rfl

theorem refFieldBad (cause : BadCause) : Statement (.refFieldBad cause) := of_event rfl

theorem silenceJudgement : Statement (.silenceJudgement) := of_event rfl

theorem refFieldOpened (id : FieldId) : Statement (.refFieldOpened id) := of_event rfl

theorem packetBadFormat (off : Nat) (kind : Nat) : Statement (.packetBadFormat off kind) := of_event rfl

theorem packetUnknownKind (off : Nat) (kind : Nat) : Statement (.packetUnknownKind off kind) := of_event rfl

theorem packetWrongLength (off : Nat) (kind : Nat) : Statement (.packetWrongLength off kind) := of_event rfl

theorem statusBlockWrite : Statement (.statusBlockWrite) := of_event rfl

theorem replyRecordWrite : Statement (.replyRecordWrite) := of_event rfl

theorem ctrlLines (off : Nat) (w30 : Nat) (s30 : Nat) (w25 : Nat) (s25 : Nat) : Statement (.ctrlLines off w30 s30 w25 s25) :=
  of_packet rfl (by decide) (rfl)

theorem clearNotices (off : Nat) (mask : Nat) : Statement (.clearNotices off mask) :=
  of_packet rfl (by decide) (by simp [payloadLength, numBytes_length])

theorem noticeMask (off : Nat) (mask : Nat) : Statement (.noticeMask off mask) :=
  of_packet rfl (by decide) (by simp [payloadLength, numBytes_length])

theorem resetPartFull (off : Nat) (scope : Nat) : Statement (.resetPartFull off scope) :=
  of_packet rfl (by decide) (rfl)

theorem resetPartFullApply : Statement (.resetPartFullApply) := of_event rfl

theorem resetPartEngine (off : Nat) : Statement (.resetPartEngine off) :=
  of_packet rfl (by decide) (rfl)

theorem inputConfig (off : Nat) (input : Nat) (first30 : Nat) (second30 : Nat) (first25 : Nat) (second25 : Nat) : Statement (.inputConfig off input first30 second30 first25 second25) :=
  of_packet rfl (by decide) (rfl)

theorem substPolicy (off : Nat) (input : Nat) (policy : Nat) : Statement (.substPolicy off input policy) :=
  of_packet rfl (by decide) (rfl)

theorem inputFieldReference (input : Input) (id : FieldId) (time : Nat) : Statement (.inputFieldReference input id time) := of_event rfl

theorem inputFieldWellFormed (input : Input) (obs : FieldObs) : Statement (.inputFieldWellFormed input obs) := of_event rfl

theorem inputFieldBad (input : Input) (cause : BadCause) : Statement (.inputFieldBad input cause) := of_event rfl

theorem inputSilenceBad (input : Input) : Statement (.inputSilenceBad input) := of_event rfl

theorem inputNoSignal (input : Input) : Statement (.inputNoSignal input) := of_event rfl

theorem storeSlip (input : Input) (line : Nat) : Statement (.storeSlip input line) := of_event rfl

theorem vitcReading (input : Input) (first : VitcLine) (second : VitcLine) : Statement (.vitcReading input first second) := of_event rfl

theorem tcConfig (off : Nat) (df : Nat) (pref0 : Nat) (pref1 : Nat) (pref2 : Nat) (pref3 : Nat) : Statement (.tcConfig off df pref0 pref1 pref2 pref3) :=
  of_packet rfl (by decide) (rfl)

theorem positionStale (deck : DeckNo) : Statement (.positionStale deck) := of_event rfl

theorem markPush (off : Nat) (deck : Nat) (position : LabelChoice) : Statement (.markPush off deck position) :=
  of_packet rfl (by decide) (by simp [payloadLength, rawLabelBytes, labelChoiceBytes])

theorem markPop (off : Nat) : Statement (.markPop off) :=
  of_packet rfl (by decide) (rfl)

theorem markClear (off : Nat) : Statement (.markClear off) :=
  of_packet rfl (by decide) (rfl)

theorem deckAssign (off : Nat) (deck : Nat) (role : Nat) (input : Nat) : Statement (.deckAssign off deck role input) :=
  of_packet rfl (by decide) (rfl)

theorem deckParams (off : Nat) (deck : Nat) (poll : Nat) (slotLine : Nat) (playLead : Nat) (recordLead : Nat) (tolerance : Nat) (timeout : Nat) : Statement (.deckParams off deck poll slotLine playLead recordLead tolerance timeout) :=
  of_packet rfl (by decide) (rfl)

theorem deckRead (off : Nat) (deck : Nat) : Statement (.deckRead off deck) :=
  of_packet rfl (by decide) (rfl)

theorem deckDirect (off : Nat) (deck : Nat) (command : Nat) (speed : Int) (cue : RawLabel) : Statement (.deckDirect off deck command speed cue) :=
  of_packet rfl (by decide) (by simp [payloadLength, numBytes_length, rawLabelBytes])

theorem slotLine (deck : DeckNo) : Statement (.slotLine deck) := of_event rfl

theorem frameSendEnd (deck : DeckNo) : Statement (.frameSendEnd deck) := of_event rfl

theorem deckReplyGood (deck : DeckNo) (reply : DeckReply) : Statement (.deckReplyGood deck reply) := of_event rfl

theorem deckReplyBad (deck : DeckNo) : Statement (.deckReplyBad deck) := of_event rfl

theorem deckTimeout (deck : DeckNo) : Statement (.deckTimeout deck) := of_event rfl

theorem chaseParams (off : Nat) (gain : Nat) (slew : Nat) (window : Nat) (lockRun : Nat) (unlock : Nat) (sync : Nat) : Statement (.chaseParams off gain slew window lockRun unlock sync) :=
  of_packet rfl (by decide) (rfl)

/-- A choice and a label take six bytes. -/
theorem labelChoice_length (x : LabelChoice) : (labelChoiceBytes x).length = 6 := rfl

/-- A choice and a number take four bytes. -/
theorem numberChoice_length (x : NumberChoice) : (numberChoiceBytes x).length = 4 := rfl

/-- The key part takes eighteen bytes. -/
theorem keyOperand_length (x : KeyOperands) : (keyOperandBytes x).length = 18 := rfl

/-- The source list takes six bytes an entry. -/
theorem sourceList_length {x : EventOperands} (h : x.sourceCount ≤ 25) :
    (sourceListBytes x).length = 6 * x.sourceCount := by
  have h1 : (sourceOperandBytes x.entry1).length = 6 := rfl
  have h2 : (sourceOperandBytes x.entry2).length = 6 := rfl
  have h3 : (zeros 138).length = 138 := List.length_replicate
  simp only [sourceListBytes, List.length_take, List.length_append, h1, h2, h3]
  omega

theorem eventLoad (off : Nat) (ops : EventOperands) : Statement (.eventLoad off ops) := by
  intro hw off kind payload hp
  have hc : ops.sourceCount ≤ 25 := by
    simp [Instr.wellFormed, EventOperands.fits, sourcesFit] at hw
    omega
  obtain ⟨rfl, rfl, rfl⟩ := by simpa [hostPacket] using hp
  have hb : byteAt (eventOperandBytes ops) 46 = ops.sourceCount := by
    have h : (eventOperandBytes ops).getD 46 0 = byteOf ops.sourceCount := rfl
    rw [byteAt, h]
    simp only [byteOf, BitVec.toNat_ofNat]
    omega
  have hl : (eventOperandBytes ops).length = 47 + 6 * ops.sourceCount := by
    simp only [eventOperandBytes, List.length_append, List.length_cons, List.length_nil, numBytes_length,
      labelChoice_length, numberChoice_length, keyOperand_length, sourceList_length hc]
  exact ⟨by decide, by simp [payloadLength, hb, hl]⟩

theorem eventClear (off : Nat) (slot : Nat) : Statement (.eventClear off slot) :=
  of_packet rfl (by decide) (rfl)

theorem eventRead (off : Nat) (slot : Nat) : Statement (.eventRead off slot) :=
  of_packet rfl (by decide) (rfl)

theorem eventArm (off : Nat) (slot : Nat) : Statement (.eventArm off slot) :=
  of_packet rfl (by decide) (rfl)

theorem listRun (off : Nat) (slot : Nat) : Statement (.listRun off slot) :=
  of_packet rfl (by decide) (rfl)

theorem cueTimeout (deck : DeckNo) : Statement (.cueTimeout deck) := of_event rfl

theorem release (off : Nat) : Statement (.release off) :=
  of_packet rfl (by decide) (rfl)

theorem rollPlayDue (deck : DeckNo) : Statement (.rollPlayDue deck) := of_event rfl

theorem endOpen (off : Nat) : Statement (.endOpen off) :=
  of_packet rfl (by decide) (rfl)

theorem postrollEnd : Statement (.postrollEnd) := of_event rfl

theorem abort (off : Nat) : Statement (.abort off) :=
  of_packet rfl (by decide) (rfl)

theorem listStop (off : Nat) : Statement (.listStop off) :=
  of_packet rfl (by decide) (rfl)

theorem guardTrip : Statement (.guardTrip) := of_event rfl

theorem guardLimit (off : Nat) (limit : Nat) : Statement (.guardLimit off limit) :=
  of_packet rfl (by decide) (rfl)

theorem activeSetTake : Statement (.activeSetTake) := of_event rfl

theorem xptSet (off : Nat) (bg1 : Nat) (bg2 : Nat) (pvw : Nat) : Statement (.xptSet off bg1 bg2 pvw) :=
  of_packet rfl (by decide) (rfl)

theorem keyParams (off : Nat) (keyOn : Nat) (fill : Nat) (keyInput : Nat) (clip : Nat) (gain : Nat) (invert : Nat) : Statement (.keyParams off keyOn fill keyInput clip gain invert) :=
  of_packet rfl (by decide) (by simp [payloadLength, numBytes_length])

theorem autoTake (off : Nat) (kind : Nat) (duration : Nat) (pattern : Nat) (curve : Nat) (softness : Nat) (reverse : Nat) : Statement (.autoTake off kind duration pattern curve softness reverse) :=
  of_packet rfl (by decide) (by simp [payloadLength, numBytes_length])

theorem autoTakeEnd : Statement (.autoTakeEnd) := of_event rfl

theorem patternLoad (off : Nat) (pattern : Nat) (shape : Nat) (cellsX : Nat) (cellsY : Nat) (reverse : Nat) : Statement (.patternLoad off pattern shape cellsX cellsY reverse) :=
  of_packet rfl (by decide) (rfl)

/-- Seventeen points of two bytes each. -/
theorem points_length (points : List Nat) : (points.flatMap (fun v => numBytes 2 v)).length = 2 * points.length := by
  induction points with
  | nil => rfl
  | cons v vs ih => simp [numBytes_length]; omega

theorem curveLoad (off curve : Nat) (points : List Nat) : Statement (.curveLoad off curve points) := by
  intro hw off kind payload hp
  have hn : points.length = 17 := by
    simp [Instr.wellFormed] at hw
    omega
  obtain ⟨rfl, rfl, rfl⟩ := by simpa [hostPacket] using hp
  exact ⟨by decide, by simp [payloadLength, numBytes_length, hn]⟩

theorem gpiAcceptedEdge (input : Fin 4) : Statement (.gpiAcceptedEdge input) := of_event rfl

theorem gpiConfig (off : Nat) (input : Nat) (role : Nat) (edge : Nat) (debounce : Nat) (markDeck : Nat) : Statement (.gpiConfig off input role edge debounce markDeck) :=
  of_packet rfl (by decide) (rfl)

theorem tallyConfig (off : Nat) (output : Nat) (role : Nat) : Statement (.tallyConfig off output role) :=
  of_packet rfl (by decide) (rfl)

end Sys2Proof.Laws.PacketFits
end

