-- ==== Sys2Proof/Tests/Slice0.lean ====
section
/-! SUPPORT. The model's own tests: ill-formed terms that the checks refuse, the volume's worked examples, and
for every statement with hypotheses a state and operands that meet them. -/

open Sys2Proof Sys2Proof.Machine

namespace Sys2Proof.Tests

-- One theorem after another: together their threads would ask for more memory than a check allows.
set_option Elab.async false

/-! ## Small states -/

/-- The state after power-on with a change of the part. -/
def on (f : Part → Part) : State := { State.reset with part := f State.reset.part }

/-- The part after one command. -/
def after (c : Instr) (s : State) : Part :=
  match exec c s with
  | .next t => t.part
  | _ => s.part

/-- The result and operand number of the last reply being built. -/
def lastReply (p : Part) : Option (Result × Nat) := p.pku.building.getLast?.map (fun r => (r.result, r.operand))

/-- A label as a slot stores it, formed non-drop. -/
def stored (hh mm ss ff : Nat) : StoredLabel :=
  { label := { hh := hh, mm := mm, ss := ss, ff := ff, field := .one }, drop := false, normalised := false }

/-- An INSERT cut of 100 frames from deck 1, held before its roll. -/
def plain : EventRecord :=
  { kind := .insert, recordIn := some (stored 1 0 0 0), length := some 100, transition := .cut, start := 0
    duration := 1, pattern := 0, curve := 0, reverse := false, softness := 0, preroll := 150, postroll := 30
    hold := .beforeRoll, tracks := 1, key := none, source1 := { deck := 1, play := stored 0 10 0 0 }
    source2 := none }

/-- The arm results of `plain`. -/
def plainArm : ArmResults :=
  { recorder := 0, recordIn := 108000, mark := none, outPoint := some 108100, recorderCue := 107850
    source1 := { deck := 1, inPoint := 18000, cue := 17850 }, source2 := none, fill := none, duration := 1
    durationClamped := false }

/-- Deck 0 RECORDER without an input, deck 1 PLAYER of input A, both online. -/
def decked (p : Part) : Part :=
  (p.modDeck 0 (fun k => { k with role := .recorder, line := .online })).modDeck 1
    (fun k => { k with role := .player, input := some .a, line := .online })

/-- Slot 5 with `plain` in a slot state. -/
def slotted (st : SlotState) (e : EventRecord) (p : Part) : Part :=
  (decked p).modSlot 5 (fun s => { s with state := st, event := some e, arm := some plainArm })

/-- Slot 5 ACTIVE with an event, in a phase, the EDS owning the preload from ROLL on. -/
def running (ph : Phase) (e : EventRecord) (p : Part) : Part :=
  ((slotted .active e p).modEds (fun x => { x with phase := ph, active := some 5, cursor := 5 })).modMep
    (fun m => { m with owner := if ph.owning then .eds else .host })

/-! ## Ill-formed terms -/

theorem test_offset_refused : (Instr.markPop 8).wellFormed = false := by decide
theorem test_byte_refused : (Instr.deckRead 0 256).wellFormed = false := by decide
theorem test_number_refused : (Instr.noticeMask 0 16777216).wellFormed = false := by decide
theorem test_signed_refused : (Instr.deckDirect 0 0 5 32768 .zero).wellFormed = false := by decide
theorem test_label_refused : (Instr.markPush 0 0 ⟨0, ⟨1, 0, 256, 0, 0⟩⟩).wellFormed = false := by decide
theorem test_labelAlternative_refused : (Instr.markPush 0 0 ⟨1, ⟨1, 0, 0, 0, 0⟩⟩).wellFormed = false := by decide
theorem test_scope_refused : (Instr.resetPartFull 0 1).wellFormed = false := by decide
theorem test_points_refused : (Instr.curveLoad 0 1 [0, 256]).wellFormed = false := by decide
theorem test_knownKind_refused : (Instr.packetUnknownKind 0 0x10).wellFormed = false := by decide
theorem test_unknownKind_refused : (Instr.packetWrongLength 0 0x7E).wellFormed = false := by decide
theorem test_field_refused : (Instr.refFieldWellFormed ⟨.one, 858, 262, .two⟩ 0).wellFormed = false := by decide
theorem test_closing_refused : (Instr.inputFieldWellFormed .a ⟨.one, 858, 263, .one⟩).wellFormed = false := by decide
theorem test_order_refused : (Instr.fieldStart 0 [.guard, .guard]).wellFormed = false := by decide
theorem test_reactions_refused : (Instr.fieldStart 0 [.advance 0 [.captures, .captures]]).wellFormed = false := by decide
theorem test_twoOrders_refused : (Instr.fieldStart 0 [.advance 0 [], .advance 0 [.chase 1]]).wellFormed = false := by decide
theorem test_line_refused : (Instr.storeSlip .a 314).wellFormed = false := by decide
theorem test_reply_refused :
    (Instr.deckReplyGood 0 ⟨false, 256, .still, true, false, false, 0, .zero, .ltc⟩).wellFormed = false := by decide

/-- The operands of the worked arming (8.6), entry 1 and entry 2 as the host sends them. -/
def worked : EventOperands :=
  { slot := 5, kind := 0, recordIn := ⟨1, .zero⟩, length := ⟨0, 300⟩, transition := 1, start := 250, duration := 120
    pattern := 0, curve := 0, reverse := 0, softness := 0, preroll := 150, postroll := 60, hold := 0, tracks := 3
    key := ⟨1, 3, ⟨0, 5, 0, 0, 0⟩, 2, 400, 32, 0, 10, 280⟩, sourceCount := 2
    entry1 := ⟨1, ⟨0, 10, 0, 0, 0⟩⟩, entry2 := ⟨2, ⟨0, 20, 0, 0, 0⟩⟩ }

theorem test_worked_fits : worked.fits = true := by decide
theorem test_lengthAlternative_refused : { worked with length := ⟨1, 300⟩ }.fits = false := by decide
theorem test_absentKey_refused : { worked with key := ⟨0, 3, .zero, 0, 0, 0, 0, 0, 0⟩ }.fits = false := by decide
theorem test_sourceCount_refused : { worked with sourceCount := 26 }.fits = false := by decide
theorem test_sourceEntry_refused : { worked with sourceCount := 1 }.fits = false := by decide

/-! ## Wire formats (2.11) -/

/-- The packet of CLEAR_NOTICES for REF_LOST and REF_JUMP, word by word (2.11.1). -/
theorem test_clearNotices_words :
    packetLine 0x11 [0x00, 0x00, 0x03]
      = [0x0A5, 0x35A, 0x0A5, 0x211, 0x203, 0x200, 0x200, 0x203, 0x217] := by decide

theorem test_clearNotices_read :
    readLine 0 [0x0A5, 0x35A, 0x0A5, 0x211, 0x203, 0x200, 0x200, 0x203, 0x217, 0x040]
      = some (.clearNotices 0 3) := by decide +kernel

/-- Line 14 of 2.9: a check word off by one. -/
theorem test_badCheckWord :
    readLine 2 [0x0A5, 0x35A, 0x0A5, 0x211, 0x203, 0x200, 0x200, 0x203, 0x216] = some (.packetBadFormat 2 0x11) := by
  decide +kernel

/-- Line 13 of 2.9: sample 0 holds 64. -/
theorem test_noPacket : readLine 1 [0x040, 0x040, 0x040] = none := by decide

/-- Line 15 of 2.9: kind 0x7E is not defined. Six ones in the kind byte give bit 8 clear and bit 9 set. -/
theorem test_unknownKind :
    readLine 3 [0x0A5, 0x35A, 0x0A5, 0x27E, 0x200, 0x27E] = some (.packetUnknownKind 3 0x7E) := by decide +kernel

/-- The sync byte, POLL's code 0x01, a count of 0, and the byte that brings the sum to 0 (2.11.8). -/
theorem test_poll_bytes : Frame.poll.bytes = [0xC3, 0x01, 0x00, 0x3C] := by decide

theorem test_worked_payload : (eventOperandBytes worked).length = 59 := by decide

/-! ## A field of traffic (2.9) -/

theorem test_notice_set : (after (.packetBadFormat 2 0x11) State.reset).noticeSet .packetError = true := by decide
theorem test_clearNotices : (after (.clearNotices 0 3) State.reset).pku.notices = 0 := by decide
theorem test_deckParams_clamped :
    (after (.deckParams 4 1 80 60 10 5 0 90) State.reset).pku.building
      = [{ kind := 0x41, result := .clamped, offset := 4, normalised := false, notRestored := false, borrow := false
           wrap := false, operand := 0, clamped := [2], payload := [] }]
    ∧ ((after (.deckParams 4 1 80 60 10 5 0 90) State.reset).deck 1).params.poll = 64 := by decide
theorem test_mask_bounds :
    lastReply (after (.noticeMask 0 262143) State.reset) = some (.accepted, 0)
    ∧ lastReply (after (.noticeMask 0 262144) State.reset) = some (.badValue, 1) := by decide
theorem test_guardLimit_bounds :
    lastReply (after (.guardLimit 0 60) State.reset) = some (.accepted, 0)
    ∧ lastReply (after (.guardLimit 0 61) State.reset) = some (.clamped, 0) := by decide
theorem test_scope_unknown : lastReply (after (.resetPartFull 0 2) State.reset) = some (.badValue, 1) := by decide
theorem test_markPop_empty : lastReply (after (.markPop 5) State.reset) = some (.noMark, 0) := by decide

/-! ## Timecode (chapter 4, 8.6) -/

/-- Drop-frame counting in SYS-30. -/
def drop30 : Counting := { std := .sys30, drop := true }

theorem test_label_count : labelCount drop30 ⟨1, 0, 0, 0, .one⟩ = 107892 := by decide
theorem test_skipped_label : normalise drop30 ⟨0, 5, 0, 0, .one⟩ = (⟨0, 5, 0, 2, .one⟩, true) := by decide
theorem test_fill_count : labelCount drop30 ⟨0, 5, 0, 2, .one⟩ = 8992 := by decide
theorem test_count_label_35966 : positionLabel drop30 35966 = ⟨0, 10, 0, 1, .one⟩ := by decide
theorem test_count_label_107742 : countLabel drop30 107742 .one = ⟨0, 59, 55, 0, .one⟩ := by decide
theorem test_count_label_108192 : countLabel drop30 108192 .one = ⟨1, 0, 10, 0, .one⟩ := by decide
theorem test_count_label_8842 : countLabel drop30 8842 .one = ⟨0, 4, 55, 0, .one⟩ := by decide

/-- A record that is valid at position 100 with this accumulator. -/
def moving (acc : Nat) : PosRec := { PosRec.reset with valid := true, position := 100, acc := acc, age := 0 }

/-- 4.6: VARIABLE at 300 goes from accumulator 220 to 8 with a step of 2. -/
theorem test_advance_300 :
    ((moving 220).advanced drop30.day .variableSpeed 300).acc = 8
    ∧ ((moving 220).advanced drop30.day .variableSpeed 300).position = 102 := by decide
/-- 4.6: at -100 from accumulator 0 the accumulator is 156 with a step of -1. -/
theorem test_advance_minus :
    ((moving 0).advanced drop30.day .variableSpeed (-100)).acc = 156
    ∧ ((moving 0).advanced drop30.day .variableSpeed (-100)).position = 99 := by decide
theorem test_shuttle : ((moving 5).advanced drop30.day .rewind 0).valid = false := by decide

/-! ## Chase (7.8) -/

/-- The default chase parameters. -/
def law : ChaseParams := Chu.reset.params

theorem test_chase_error : chaseError drop30 35785 215600 35964 215784 = 5 := by decide
theorem test_chase_speed : speedLaw law 5 = 246 := by decide
theorem test_chase_rounding : speedLaw { law with gain := 2 } (-3) = 258 := by decide
theorem test_chase_slew : speedLaw law 40 = 224 := by decide
theorem test_chase_midnight : chaseError { std := .sys25, drop := false } 60503 2 60000 4319500 = 1 := by decide
theorem test_lock_field2 : lockJudged law .two 0 { state := .pullIn, error := 0, lockCount := 0, speed := 256 }
    = { state := .pullIn, error := 0, lockCount := 0, speed := 256 } := by decide
theorem test_lock_third : (lockJudged law .one 0 { state := .pullIn, error := 0, lockCount := 2, speed := 256 }).state
    = .locked := by decide
theorem test_lock_lost : (lockJudged law .one 2 { state := .locked, error := 0, lockCount := 3, speed := 256 }).state
    = .pullIn := by decide

/-! ## The worked arming (8.6) -/

/-- The decks of 8.6, deck 3 with or without input C, and the captured mark on top. -/
def consoleDecks (fill : Option Input) (p : Part) : Part :=
  ((((p.modDeck 0 (fun k => { k with role := .recorder })).modDeck 1 (fun k => { k with role := .player, input := some .a })).modDeck
    2 (fun k => { k with role := .player, input := some .b })).modDeck 3 (fun k => { k with role := .player, input := fill })).modTcu
    (fun t => { t with dfMode := true, marks := [{ position := 215785, deck := 0, origin := .g 2 }] })

/-- Slot 5 as the load of 8.6 leaves it. -/
def workedSlot : State := { State.reset with part := after (.eventLoad 0 worked) (on (consoleDecks (some .c))) }

theorem test_load_normalised :
    (workedSlot.part.pku.building.map fun r => (r.result, r.normalised)) = [(.accepted, true)]
    ∧ (workedSlot.part.slot 5).state = .loaded := by decide +kernel

/-- Step 2 refuses deck 3 without an input, before the pop. -/
theorem test_arm_refused :
    (after (.eventArm 0 5) { workedSlot with part := workedSlot.part.modDeck 3 (fun k => { k with input := none }) }).tcu.marks.length = 1
    ∧ lastReply (after (.eventArm 0 5) { workedSlot with part := workedSlot.part.modDeck 3 (fun k => { k with input := none }) })
      = some (.state, 0) := by decide +kernel

theorem test_arm_results :
    ((after (.eventArm 0 5) workedSlot).slot 5).arm = some
      { recorder := 0, recordIn := 107892, mark := some (0, .g 2), outPoint := some 108192, recorderCue := 107742
        source1 := { deck := 1, inPoint := 17982, cue := 17832 }
        source2 := some { deck := 2, inPoint := 35964, cue := 35814 }
        fill := some { deck := 3, inPoint := 8992, cue := 8842 }, duration := 100, durationClamped := true } := by
  decide +kernel

/-! ## Worked samples (10.10) and the auto-take (10.11) -/

theorem test_dissolve_level : levelOf .mix (curveAt linearCurve 1365) = 341 := by decide
theorem test_dissolve_luma : mixed 700 200 341 = 533 := by decide
theorem test_dissolve_chroma : mixed 400 600 341 = 467 := by decide
theorem test_wipe_soft : [2042, 2048, 2104, 2161].map (wipeCoefficient 2048 4) = [560, 512, 64, 0] := by decide
theorem test_wipe_hard : [2042, 2048].map (wipeCoefficient 2048 0) = [1024, 0] := by decide
theorem test_pattern_box : patternValue ⟨.box, 1, 1, false⟩ false 486 180 243 = 2047 := by decide
theorem test_pattern_diamond : patternValue ⟨.diamond, 1, 1, false⟩ false 486 180 243 = 1024 := by decide
theorem test_pattern_diag : patternValue ⟨.diag, 1, 1, false⟩ false 486 180 243 = 1536 := by decide
theorem test_pattern_cells : patternValue ⟨.hEdge, 8, 1, false⟩ false 486 100 0 = 455 := by decide
theorem test_key : [350, 400, 600, 1000].map (keyCoefficient · 400 32 false) = [0, 0, 400, 1024] := by decide
theorem test_key_inverted : [350, 400, 600, 1000].map (keyCoefficient · 400 32 true) = [1024, 1024, 624, 0] := by decide
theorem test_key_mix : mixed 533 940 400 = 692 := by decide

/-- A MIX auto-take of four fields that has counted n. -/
def taking (n : Nat) : Mep :=
  { Mep.reset with owner := .auto, take := some { kind := .mix, duration := 4, curve := 0, count := n }
                   preload := { ParamSet.reset with bg1 := .a, bg2 := .b, transition := .mix } }

theorem test_autoTake_levels : [0, 1, 2, 3].map (fun n => (taking n).advanceTake.preload.level) = [256, 512, 768, 1024] := by
  decide
theorem test_autoTake_ends :
    (taking 4).advanceTake.owner = .host ∧ (taking 4).advanceTake.preload.level = 0
    ∧ (taking 4).advanceTake.preload.bg1 = .b := by decide

/-! ## States that meet the statements' hypotheses -/

/-- A field of each standard, opened with field 1. -/
def field30 : FieldObs := { id := .one, lineLen := 858, lines := 263, closing := .two }
def field25 : FieldObs := { id := .one, lineLen := 864, lines := 312, closing := .two }

/-- The RTU in a lock state with a run, misses and a candidate, field 1 of REF in progress. -/
def rtuAt (lock : Lock) (run miss : Nat) (cand : Option Standard) : State :=
  on (·.modRtu (fun r => { r with lock := lock, run := run, miss := miss, candidate := cand, refField := some .one }))

/-- The RTU timing at a count of luma sample periods. -/
def timed (elapsed : Nat) (p : Part) : Part :=
  p.modRtu (fun r => { r with timing := { r.timing with elapsed := elapsed } })

/-- The rows that come to wait in an idle step. -/
def queued (p : Part) : List Instr :=
  match step { part := p, pending := [] } with
  | .next t => t.pending
  | _ => []

/-! ### Idle steps -/

theorem test_idle_fieldStart : (queued (timed 225653 State.reset.part)).head? = some (.fieldStart 0 []) := by decide +kernel
theorem test_idle_beforeFieldStart : queued (timed 225652 State.reset.part) = [] := by decide +kernel
theorem test_idle_owed :
    (queued (on (·.modRtu (fun r => { r with timing := { r.timing with owes := some (.two, .sys30) } }))).part).head?
      = some (.fieldStart 0 []) := by decide +kernel
/-- Line 10 of the outputs begins eleven line periods after the field start, line 30 of REF twenty-nine. -/
theorem test_idle_lines :
    Instr.statusBlockWrite ∈ queued (timed (11 * 858 - 1) State.reset.part)
    ∧ Instr.replyRecordWrite ∈ queued (timed (12 * 858 - 1) State.reset.part)
    ∧ Instr.slotLine 0 ∈ queued (timed (29 * 858 - 1) State.reset.part)
    ∧ Instr.activeSetTake ∈ queued (timed (22 * 858 - 1) State.reset.part) := by decide +kernel
/-- Line 262 of field 2 begins with the field start that follows, and its stored line bears the count before. -/
theorem test_idle_lastLine :
    Instr.storeSlip .a 262 ∈ queued (on (fun p => (timed 857 p).modRtu (fun r => { r with
      fieldCount := 4, timing := { r.timing with before := some { len := 262 * 858, id := .two, std := .sys30 } } }))).part := by
  decide +kernel
theorem test_idle_silence :
    let ref (quiet silence : Option Nat) : Part := (on (·.modRtu (fun r => { r with quiet := quiet, silence := silence }))).part
    Instr.silenceJudgement ∈ queued (ref (some 1727) none)
    ∧ Instr.silenceJudgement ∉ queued (ref (some 1726) (some 1727))
    ∧ Instr.silenceJudgement ∈ queued (ref none (some 225653))
    ∧ Instr.inputSilenceBad .b ∈ queued (on (·.modSiu .b (fun u => { u with quiet := 1727, judging := true }))).part
    ∧ Instr.inputNoSignal .b ∈ queued (on (·.modSiu .b (fun u => { u with quiet := 225653, clean := 1 }))).part := by
  decide +kernel

/-- The span judged is not judged again, and a line that returns begins the next one. -/
theorem test_silence_again :
    let r := (after .silenceJudgement (on (·.modRtu (fun r => { r with quiet := some 1728 })))).rtu
    (r.quiet, r.silence) = (none, some 0) ∧ (r.lineReference.quiet, r.lineReference.silence) = (some 0, some 0) := by decide
/-- Input A has no line 10 of field 0 at its beginning, input B has it. -/
theorem test_idle_lookUp :
    let line : StoredLine := { field := some 0, line := 10, luma := [70], cb := [], cr := [] }
    let p := timed (11 * 858 - 1) (on (·.modSiu .b (fun u => { u with store := [line] }))).part
    (queued p).filter (fun c => c matches .storeSlip _ _) = [.storeSlip .a 10, .storeSlip .c 10]
    ∧ (p.tick.siu .b).lookedUp = some { field := 0, line := 10, found := some line } := by decide +kernel
/-- The 44 bits of a POLL last 15,469 luma sample periods at 38,400 baud. -/
theorem test_idle_sendEnd :
    let p (n : Nat) : Part := (on (·.modPort 1 (fun q => { q with sending := [.poll], sent := n }))).part
    Instr.frameSendEnd 1 ∈ queued (p 15468) ∧ Instr.frameSendEnd 1 ∉ queued (p 15467)
    ∧ ((p 3).tick.port 1).sent = 4 ∧ (State.reset.part.tick.port 1).sent = 0 := by decide +kernel

/-! ### Replies and resets -/

theorem witness_oneReply :
    hostPacket (.markPop 7) = some (7, 0x32, []) ∧ lastReply (after (.markPop 7) State.reset) = some (.noMark, 0) := by decide
theorem witness_resetCommands :
    State.reset.part.eds.active = none ∧ (on (running .cue plain)).part.eds.active ≠ none := by decide
theorem witness_fullReset : (on (·.modPku (fun k => { k with fullPending := true }))).part.pku.fullPending = true := by decide
/-- A chasing deck of an active event, and the same without an event. -/
theorem witness_engineReset :
    let s := on (fun p => (running .roll plain p).modDeck 1 (fun k => { k with chase := { k.chase with state := .pullIn } }))
    s.part.eds.active = some 5 ∧ (s.part.deck 1).chase.state ≠ .off ∧ s.part.inActiveEvent 1 = true
    ∧ s.part.recorder = some 0 ∧ s.part.mep.owner = .eds ∧ State.reset.part.eds.active = none
    ∧ ((on (slotted .armed plain)).part.slot 5).state = .armed := by decide

/-! ### Field starts -/

/-- An event in CUE whose deck 1 waits with a timer, the guard running or not. -/
def cueing (timer : Nat) (p : Part) : Part := (running .cue plain p).setCue 1 { state := .waiting, misses := 0, timer := timer }

/-- An event in RECORD with a running guard. -/
def guarded (count : Nat) (p : Part) : Part :=
  (running .record plain p).modEds (fun e => { e with guardRunning := true, guardCount := count })

/-- Every position record younger than 30 field starts, none valid. -/
def young (p : Part) : Part :=
  { p with decks := p.decks.map (fun k => { k with position := { k.position with age := 0 } }) }

theorem witness_fieldStart :
    State.reset.part.pku.fullPending = false ∧ State.reset.part.rtu.timing.owes = none
    ∧ (on (·.modRtu (fun r => { r with timing := { r.timing with owes := some (.two, .sys30) } }))).part.pku.fullPending = false := by
  decide
theorem witness_fieldStart_cue :
    let expired (p : Part) : Bool := allDecks.any (fun d => (p.eds.cues.get d).any (fun c => c.state != .reached && decide (c.timer ≤ 1)))
    (on (cueing 2)).part.eds.phase = .cue ∧ expired (on (cueing 2)).part = false ∧ expired (on (cueing 1)).part = true
    ∧ (on (cueing 1)).part.eds.active = some 5 ∧ (on (cueing 1)).part.eds.guardRunning = false
    ∧ ((on (cueing 1)).part.gtu.gpis.cells.all (fun g => g.role == .noRole)) = true := by decide
theorem witness_fieldStart_postroll :
    let s (n : Nat) := on (fun p => (running .postroll plain p).modEds (fun e => { e with postroll := n }))
    (s 2).part.eds.phase = .postroll ∧ (s 2).part.eds.postroll = 2 ∧ (s 1).part.eds.postroll = 1
    ∧ (s 1).part.eds.active = some 5 := by decide
theorem witness_fieldStart_guard :
    let p := (on (fun p => guarded 9 (young p))).part
    p.eds.phase = .record ∧ p.eds.guardRunning = true ∧ p.eds.guardLimit ≤ min 60 (9 + 1)
    ∧ min 60 (8 + 1) < p.eds.guardLimit
    ∧ allDecks.all (fun d => decide ((p.deck d).position.age < 30) && !(p.deck d).position.valid) = true := by decide
theorem witness_fieldStart_span :
    let s := on (fun p => (guarded 3 (young p)).modDeck 0 (fun k => { k with transport := .play, position := moving 0 }))
    (s.part.deck 0).position.valid = true ∧ (s.part.deck 0).position.age < 30
    ∧ (after (.fieldStart 0 []) s).eds.guardCount = 4 ∧ (after (.fieldStart 0 []) s).eds.phase = .record := by decide +kernel
theorem test_cueTimer_expires :
    (((after (.fieldStart 0 []) (on (cueing 1))).slot 5).run.reason = .cueTimeout)
    ∧ ((after (.fieldStart 0 []) (on (cueing 2))).eds.cues.get 1).map CueRecord.timer = some 1 := by decide +kernel
theorem witness_fieldCount_moves : (after (.fieldStart 0 []) State.reset).rtu.fieldCount = 1 := by decide +kernel

/-! ### Reference timing -/

theorem witness_reference_opens :
    State.reset.part.rtu.refField = none ∧ (after (.refFieldOpened .two) State.reset).rtu.refField = some .two := by decide
theorem witness_reference_noRef :
    standardOf { field30 with id := .one } = some .sys30 ∧ (rtuAt .noRef 0 0 none).part.rtu.refField = some .one
    ∧ (rtuAt .noRef 0 0 none).part.rtu.lock = .noRef := by decide
theorem witness_reference_restart :
    standardOf field25 = some .sys25 ∧ (rtuAt .acquire 2 0 (some .sys30)).part.rtu.candidate ≠ some .sys25 := by decide
theorem witness_reference_counts :
    let r := (rtuAt .acquire 2 0 (some .sys30)).part.rtu
    r.lock = .acquire ∧ r.run ≠ 0 ∧ r.candidate = some .sys30 ∧ r.run < 3 := by decide
theorem witness_reference_freewheel :
    let r := (rtuAt .freewheel 2 0 none).part.rtu
    r.lock = .freewheel ∧ r.run < 3 ∧ standardOf field30 = some r.std ∧ standardOf field25 = some .sys25 ∧ r.std ≠ .sys25 := by
  decide
theorem test_freewheel_change :
    let p := after (.refFieldWellFormed field25 0) { rtuAt .freewheel 2 0 none with
      part := (running .cue plain (rtuAt .freewheel 2 0 none).part) }
    p.rtu.lock = .acquire ∧ p.noticeSet .standardChange = true ∧ (p.slot 5).run.reason = .standardChange
    ∧ (p.slot 5).arm = none := by decide +kernel
theorem witness_bad_none : State.reset.part.rtu.refField = none ∧ (rtuAt .acquire 0 0 none).part.rtu.refField ≠ none := by decide
theorem witness_bad_noStandard : standardOf { field30 with lineLen := 860 } = none ∧ standardOf { field30 with id := .two } = none := by
  decide
theorem witness_bad_acquire :
    (rtuAt .acquire 0 0 (some .sys30)).part.rtu.miss = 0 ∧ (rtuAt .acquire 0 1 (some .sys30)).part.rtu.miss = 1 := by decide
theorem witness_bad_locked :
    (rtuAt .locked 0 0 none).part.rtu.lock = .locked ∧ (rtuAt .locked 0 1 none).part.rtu.miss = 1
    ∧ (rtuAt .freewheel 0 0 none).part.rtu.lock = .freewheel := by decide
/-- The slot's state, the phase and the running guard after the second miss in LOCKED of an event in a phase. -/
def leaving (ph : Phase) (limit : Nat) : SlotState × Phase × Bool × Bool :=
  let s := rtuAt .locked 0 1 none
  let p := after (.refFieldBad .overrun) { s with part := (running ph plain s.part).modEds (fun e => { e with guardLimit := limit }) }
  ((p.slot 5).state, p.eds.phase, p.eds.guardRunning, p.noticeSet .guardTrip)

theorem test_leaving_locked :
    leaving .roll 10 = (.failed, .idle, false, false) ∧ leaving .record 10 = (.active, .record, true, false)
    ∧ leaving .record 0 = (.failed, .idle, false, true) ∧ leaving .postroll 0 = (.active, .postroll, false, false) := by
  decide +kernel
theorem witness_locked_inStep :
    let p := (rtuAt .locked 0 1 none).part
    standardOf field30 = some p.rtu.std ∧ p.rtu.lock = .locked ∧ (timed 225654 p).rtu.agrees .two = true := by decide
theorem witness_locked_outOfStep :
    let p (miss : Nat) := (rtuAt .locked 0 miss none).part
    (timed 225653 (p 0)).rtu.agrees .two = false ∧ (p 0).rtu.miss = 0 ∧ (timed 225655 (p 1)).rtu.agrees .two = false
    ∧ (p 1).rtu.miss = 1 := by decide
theorem witness_locked_change : standardOf field25 = some .sys25 ∧ (rtuAt .locked 0 0 none).part.rtu.std ≠ .sys25 := by decide
theorem witness_confirming_acquire :
    let r := (rtuAt .acquire 3 0 (some .sys25)).part.rtu
    standardOf field25 = some .sys25 ∧ r.run = 3 ∧ r.lock = .acquire ∧ r.candidate = some .sys25 := by decide
theorem witness_confirming_freewheel :
    let r := (rtuAt .freewheel 3 0 none).part.rtu
    standardOf field30 = some r.std ∧ r.run = 3 ∧ r.lock = .freewheel := by decide
/-- The phase after a confirming reference from FREEWHEEL, in step or not, of an event with a running guard, one in HOLD
with a release, and one in CUE whose decks have all reached cue. -/
def confirmed (f : Part → Part) (time : Nat) : Phase × Bool :=
  let s := rtuAt .freewheel 3 0 none
  let p := after (.refFieldWellFormed field30 time) { s with part := f s.part }
  (p.eds.phase, p.eds.guardRunning)

theorem test_entering_locked :
    let cued (hold : Hold) (p : Part) : Part := [0, 1].foldl (fun (q : Part) d => q.setCue d { state := .reached, misses := 0, timer := 9 })
      (running .cue { plain with hold := hold } p)
    confirmed (guarded 3) 225654 = (.record, false) ∧ confirmed (guarded 3) 7 = (.idle, false)
    ∧ confirmed (fun p => (running .hold plain p).modEds (fun e => { e with latch := true })) 225654 = (.roll, false)
    ∧ confirmed (cued .noHold) 225654 = (.roll, false) ∧ confirmed (cued .beforeRoll) 225654 = (.hold, false) := by decide +kernel
/-- A confirming reference of field 1 that arrives as field 2 falls due snaps the timing and keeps that field start. -/
theorem test_confirming_owes :
    let s := rtuAt .acquire 3 0 (some .sys30)
    let obs : FieldObs := { id := .one, lineLen := 858, lines := 263, closing := .two }
    let t := (after (.refFieldWellFormed obs 225654) { s with part := timed 225654 (s.part.modRtu (fun r => { r with
      timing := { r.timing with counted := .two, placed := 858 } })) }).rtu
    t.lock = .locked ∧ t.timing.owes = some (.one, .sys30) ∧ t.timing.placed = 225654 := by decide +kernel

/-! ### Soundness at reset and in a run -/

theorem witness_sound :
    let p := State.reset.part
    p.engineSound = true ∧ p.tableSound = true ∧ p.recordSound = true ∧ p.mixerSound = true ∧ p.positionsSound = true
    ∧ (p.referenceSound && p.consoleSound && p.countersSound) = true := by decide +kernel
/-- An INSERT in RECORD, with record ON wanted of the recorder. -/
theorem witness_sound_record :
    let p := (on (fun p => ((running .record plain p).modDeck 0 (fun k => { k with wantRecord := true })).modEds
      (fun e => { e with outPoint := some 108100 }))).part
    let q := { p with chu := { p.chu with syncWatch := true } }
    q.engineSound = true ∧ q.tableSound = true ∧ q.recordSound = true ∧ q.mixerSound = true := by decide +kernel

/-! ### Packets and structural values -/

theorem witness_packet :
    (Instr.eventLoad 7 worked).wellFormed = true ∧ (hostPacket (.eventLoad 7 worked)).isSome = true := by decide

/-- Each command is refused with the operand beside it, which stands at the first value past its range. -/
theorem test_structural_refused :
    [(Instr.inputConfig 0 3 14 16 19 21, 1), (.substPolicy 0 0 2, 2), (.tcConfig 0 2 0 0 0 0, 1), (.tcConfig 0 0 0 0 0 2, 5)
     , (.markPush 0 4 ⟨1, .zero⟩, 1), (.markPush 0 0 ⟨2, .zero⟩, 2), (.markPush 0 0 ⟨0, ⟨24, 0, 0, 0, 0⟩⟩, 2)
     , (.deckAssign 0 0 3 0, 2), (.deckAssign 0 0 0 4, 3), (.deckParams 0 4 4 30 10 5 0 90, 1), (.deckRead 0 4, 1)
     , (.deckDirect 0 0 9 0 .zero, 2), (.deckDirect 0 0 0 0 ⟨0, 0, 0, 30, 0⟩, 4), (.eventClear 0 64, 1), (.eventRead 0 64, 1)
     , (.eventArm 0 64, 1), (.listRun 0 64, 1), (.xptSet 0 0 0 5, 3), (.keyParams 0 0 0 3 64 16 0, 3)
     , (.keyParams 0 0 0 0 64 16 2, 6), (.autoTake 0 3 1 0 0 0 0, 1), (.autoTake 0 1 1 0 4 0 0, 4), (.autoTake 0 1 1 0 0 0 2, 6)
     , (.patternLoad 0 0 5 1 1 0, 2), (.patternLoad 0 16 0 1 1 2, 1), (.curveLoad 0 0 (List.range 17), 1)
     , (.curveLoad 0 4 (List.range 17), 1), (.gpiConfig 0 0 4 0 2 0, 2), (.gpiConfig 0 0 0 2 2 0, 3)
     , (.gpiConfig 0 0 0 0 2 4, 5), (.tallyConfig 0 4 0, 1), (.tallyConfig 0 0 7, 2)].all
      (fun x => lastReply (after x.1 State.reset) == some (.badValue, x.2)) = true := by decide +kernel
/-- The same for EVENT_LOAD, which the worked event passes. -/
theorem test_structural_event :
    [({ worked with slot := 64 }, 1), ({ worked with recordIn := ⟨2, .zero⟩ }, 3), ({ worked with transition := 3 }, 5)
     , ({ worked with start := 2591999 }, 6), ({ worked with hold := 2 }, 14), ({ worked with tracks := 16 }, 15)
     , ({ worked with key := { worked.key with presence := 2 } }, 16), ({ worked with key := { worked.key with keyInput := 3 } }, 18)
     , ({ worked with key := { worked.key with offOffset := 2592000 } }, 23), ({ worked with sourceCount := 0 }, 24)
     , ({ worked with entry2 := ⟨4, .zero⟩ }, 26), ({ worked with entry2 := ⟨2, ⟨0, 60, 0, 0, 0⟩⟩ }, 27)].all
      (fun x => lastReply (after (.eventLoad 0 x.1) State.reset) == some (.badValue, x.2)) = true
    ∧ lastReply (after (.eventLoad 0 { worked with start := 2591998 }) State.reset) = some (.accepted, 0) := by decide +kernel

/-! ### Outputs -/

/-- The first field of the outputs, two line periods in. -/
def sent30 : OutputField := { id := .one, count := 0, std := .sys30, since := 1716 }

theorem witness_outputLines :
    sent30.isActive 20 = false ∧ sent30.isActive 21 = true ∧ sent30.isActive 263 = true ∧ sent30.isActive 264 = false
    ∧ sent30.hasLine 1 = true ∧ sent30.hasLine 0 = false ∧ sent30.hasLine 264 = false
    ∧ State.reset.part.mep.active.onAir = false ∧ State.reset.part.pku.inUse.status = 10 := by decide
/-- The lead of the status block stands at the start of line 10, and the luma after the record is 64. -/
theorem test_statusLine :
    let p := after .statusBlockWrite State.reset
    [0, 1, 2, 3].map (p.pgmLine sent30 10 .y) = [0x0A5, 0x35A, 0x0A5, 0x2F0] ∧ p.pgmLine sent30 10 .y 90 = 64
    ∧ p.pgmLine sent30 10 .cb 0 = 512 ∧ p.pvwLine sent30 10 .y 0 = 64 := by decide +kernel
/-- Table 2-6 at reset: REF_LOST set, every notice enabled, no active slot, last-sent record level UNKNOWN. -/
theorem test_statusBytes_reset :
    [3, 4, 6, 7, 8, 9, 10, 11, 15, 31].map (fun k => State.reset.part.statusBytes[k]?)
      = [0, 0, 0, 0, 1, 3, 255, 255, 255, 2].map some := by decide +kernel
/-- The block reports the field identity and the chase items beside its bytes. -/
theorem test_statusBeside :
    State.reset.part.pku.statusBeside = none
    ∧ (after .statusBlockWrite State.reset).pku.statusBeside.map (fun b => (b.identity, b.lockCounts.get 1, b.speeds.get 1))
        = some (.one, 0, 256) := by decide +kernel
/-- Before its second line period a field of the outputs is still the field before. -/
theorem test_outputField :
    let r (n : Nat) := (on (fun p => (timed n p).modRtu (fun r => { r with
      fieldCount := 4, timing := { r.timing with before := some { len := 262 * 858, id := .two, std := .sys30 } } }))).part.rtu
    (r 1715).outputField.map (fun f => (f.count, f.line)) = some (3, 262)
    ∧ (r 1716).outputField.map (fun f => (f.count, f.line)) = some (4, 1)
    ∧ (r 1716).outputReference = some (.field .one) := by decide +kernel

/-! ### Source inputs -/

/-- Ninety cells of the label 00:00:00:00 of field 1: the two sync cells of each of the nine groups, and every data cell 0. -/
def zeroCells : VitcLine :=
  .cells (((List.range 9).map (fun k => (1#90) <<< (10 * k))).foldl (· ||| ·) 0)

theorem test_zeroCells : readingOf .sys30 true zeroCells zeroCells = some (⟨0, 0, 0, 0, .one⟩, false) := by decide +kernel

/-- Input A in a state, matched to the present field, its VITC reading due at count 0; deck 1 holds it. -/
def reading (st : SiuState) (pref : Preference) (deckAge : Nat) (p : Part) : Part :=
  (((decked p).modSiu .a (fun u => { u with state := st, matchedField := some 0 })).modTcu (fun t => { t with settled := true })).modDeck 1
    (fun k => { k with position := { k.position with preference := pref, deckAge := deckAge } })

theorem witness_policy : policyOf 1 = some .bars ∧ State.reset.part.mep.owner = .host
    ∧ (on (running .roll plain)).part.mep.owner ≠ .host := by decide
theorem witness_inputGood :
    let s := on (fun p => (decked p).modSiu .a (fun u => { u with
      closedJudging := true, clean := 1, offset := 858, reading := some ⟨⟨0, 0, 0, 0, .one⟩, false, 0⟩ }))
    (s.part.siu .a).closedJudging = true ∧ fieldWellFormed field30 s.part.rtu.std = true
    ∧ (s.part.siu .a).offset.natAbs ≤ Config.lineLen s.part.rtu.std ∧ (s.part.siu .a).clean ≠ 0
    ∧ s.part.holder .a = some 1
    ∧ ((after (.inputFieldWellFormed .a field30) s).siu .a).state = .inWindow := by decide +kernel
theorem test_inputGood_outOfWindow :
    let s := on (·.modSiu .a (fun u => { u with closedJudging := true, clean := 1, offset := 859 }))
    let p := after (.inputFieldWellFormed .a field30) s
    (p.siu .a).state = .outOfWindow ∧ (p.siu .a).clean = 2 ∧ p.noticeSet .inputWindow = true := by decide +kernel
theorem witness_inputBad :
    let s (closed open_ : Bool) := on (·.modSiu .a (fun u => { u with closedJudging := closed, judging := open_, formed := true }))
    ((s true true).part.siu .a).closedJudging = true ∧ ((s false true).part.siu .a).judging = true
    ∧ ((after (.inputFieldBad .a .identity) (s true true)).siu .a).judging = true
    ∧ (State.reset.part.siu .a).judging = false := by decide +kernel
theorem witness_storeSlip :
    let s := on (fun p => timed 1716 (p.modSiu .a (fun u => { u with state := .inWindow })))
    (s.part.siu .a).state = .inWindow ∧ (s.part.siu .a).lookedUp = none ∧ (s.part.siu .a).storedFor 0 21 = none
    ∧ s.part.rtu.outputField.map (·.count) = some 0 ∧ (State.reset.part.siu .a).state ≠ .inWindow
    ∧ State.reset.part.rtu.outputField = none := by decide
/-- A line that comes into the store after its beginning stays black for that line. -/
theorem test_storeSlip_held :
    let line : StoredLine := { field := some 0, line := 21, luma := [70], cb := [80], cr := [1023] }
    let s := on (fun p => timed (22 * 858) (p.modSiu .a (fun u => { u with state := .inWindow })))
    let p := (after (.storeSlip .a 21) s).modSiu .a (fun u => { u with store := [line] })
    (p.siu .a).state = .outOfWindow ∧ p.noticeSet .inputWindow = true ∧ (p.siu .a).supplies 0 21 = blackLine
    ∧ ((s.part.modSiu .a (fun u => { u with store := [line] })).siu .a).supplies 0 21 = { luma := [70], cb := [80], cr := [1019] } := by
  decide +kernel
/-- An arriving line is line 14, the first VITC line in use, whose cells it gives; the line after line 16 brings the reading. -/
theorem test_vitc_arrives :
    let v : VideoLine := { luma := [0, 0, 0, 0, 503, 0, 0, 0, 0, 0, 0, 0, 502], cb := [], cr := [] }
    let at_ (n : Nat) := (on (·.modSiu .a (fun u => { u with line := n, vitcSecond := .cells 7 }))).receiveInputLine .a v
    ((at_ 13).part.siu .a).vitcFirst = .cells 1 ∧ ((at_ 12).part.siu .a).vitcFirst = .notReached ∧ (at_ 15).pending = []
    ∧ (at_ 16).pending = [.vitcReading .a .notReached (.cells 7)] := by decide +kernel
/-- The five rows of R50. -/
theorem test_reading_rows :
    let rows (first second : VitcLine) : Option (Label × Bool) := readingOf .sys30 false first second
    let one : VitcLine := .cells (cellsOf ((List.range 720).map (fun i =>
      if i / 8 % 10 = 0 ∨ i / 8 = 2 ∨ 82 ≤ i / 8 then 940 else 64)))
    rows one .notReached = some (⟨0, 0, 0, 1, .one⟩, false) ∧ rows zeroCells .notReached = some (⟨0, 0, 0, 0, .one⟩, false)
    ∧ rows .notReached zeroCells = some (⟨0, 0, 0, 0, .one⟩, false) ∧ rows one one = some (⟨0, 0, 0, 1, .one⟩, false)
    ∧ rows one zeroCells = some (⟨0, 0, 0, 1, .one⟩, false) ∧ rows zeroCells one = some (⟨0, 0, 0, 0, .one⟩, false)
    ∧ rows .notReached .notReached = none
    ∧ readingOf .sys30 true .notReached zeroCells = none := by decide +kernel
theorem witness_reading :
    let s := on (reading .inWindow .deckFirst 3)
    (s.part.siu .a).state = .inWindow ∧ s.part.holder .a = some 1 ∧ s.part.holder .b = none ∧ s.part.tcu.settled = true
    ∧ labelInRange s.part.counting ⟨0, 0, 0, 0, .one⟩ = true ∧ State.reset.part.tcu.settled = false
    ∧ ((on (reading .inWindow .deckFirst 2)).part.deck 1).position.deckAge ≤ 2 := by decide
theorem test_vitc_position :
    let p := after (.vitcReading .a zeroCells zeroCells) (on (reading .inWindow .deckFirst 3))
    (p.deck 1).position.valid = true ∧ (p.deck 1).position.source = .vitc ∧ (p.deck 1).position.position = 0
    ∧ ((after (.vitcReading .a zeroCells zeroCells) (on (reading .inWindow .deckFirst 2))).deck 1).position.valid = false := by
  decide +kernel

/-! ### Timecode, marks and the deck table -/

theorem witness_timecode :
    State.reset.part.eds.active = none ∧ State.reset.part.tcu.dfMode = false
    ∧ lastReply (after (.tcConfig 0 1 0 0 0 0) (on (running .cue plain))) = some (.busy, 0) := by decide +kernel
/-- A change of counting drops what names a frame of the counting before, and keeps the rest (R88). -/
theorem test_counting_change_drops_cue :
    let s (x : Direct) := on (·.modDeck 0 (fun k => { k with sent := .cueTo 5, direct := some x }))
    let k (x : Direct) := (after (.tcConfig 0 1 0 0 0 0) (s x)).deck 0
    (k ⟨.cueTo, 0, none⟩).sent = .unknown ∧ (k ⟨.cueTo, 0, none⟩).direct = none
    ∧ (k ⟨.play, 0, none⟩).direct = some ⟨.play, 0, none⟩ := by decide +kernel
theorem witness_stale :
    let s := on (·.modDeck 0 (fun k => { k with position := { k.position with valid := true, age := 31 } }))
    (s.part.deck 0).position.valid = true ∧ 30 < (s.part.deck 0).position.age := by decide
theorem witness_notStale :
    let s := on (·.modDeck 0 (fun k => { k with position := { k.position with valid := true, age := 30 } }))
    (s.part.deck 0).position.age ≤ 30 := by decide
theorem witness_mark :
    readLabel State.reset.part.counting ⟨23, 59, 59, 29, 1⟩ = some (⟨23, 59, 59, 29, .two⟩, false)
    ∧ (State.reset.part.deck 0).position.valid = false
    ∧ ((on (·.modDeck 0 (fun k => { k with position := moving 0 }))).part.deck 0).position.valid = true := by decide
theorem witness_labelOfCount : 2589407 < (countingOf .sys30 true).dayFrames := by decide
theorem witness_recordAdvances : 0 < drop30.day ∧ (moving 0).valid = true ∧ PosRec.reset.valid = false := by decide
theorem witness_deckAssign :
    roleOf 2 = some .recorder ∧ videoInputOf 3 = some none ∧ State.reset.part.inActiveEvent 3 = false
    ∧ allDecks.all (fun e => (State.reset.part.deck e).role != .recorder) = true := by decide
/-- Input A is held by deck 1, deck 0 is RECORDER, and the order of the refusals is that of R80. -/
theorem test_deckAssign_refused :
    [(Instr.deckAssign 0 2 1 0, on (running .cue plain)), (.deckAssign 0 1 2 0, on (running .cue plain))
     , (.deckAssign 0 1 2 0, on decked), (.deckAssign 0 3 2 1, on decked)].map (fun x => lastReply (after x.1 x.2))
      = [some (.badValue, 3), some (.busy, 0), some (.state, 0), some (.state, 0)] := by decide +kernel
theorem witness_deckHeld : (on (running .cue plain)).part.inActiveEvent 1 = true := by decide
theorem witness_chasing :
    let s := on (·.modDeck 1 (fun k => { k with chase := { k.chase with state := .lost } }))
    (s.part.deck 1).chase.state ≠ .off ∧ (State.reset.part.deck 1).chase.state = .off := by decide
theorem witness_direct :
    directOf 8 = some .recordOff ∧ readLabel State.reset.part.counting .zero = some (⟨0, 0, 0, 0, .one⟩, false)
    ∧ ((on decked).part.deck 1).direct = none ∧ ((on decked).part.deck 1).role ≠ .noRole
    ∧ (on decked).part.inActiveEvent 1 = false := by decide

/-! ### Deck lines -/

/-- Deck 1 with nothing left to send, the prescaler at a count. -/
def polled (prescaler : Nat) (f : Deck → Deck) : State :=
  on (fun p => ((decked p).modDeck 1 (fun k => f { k with sentRecord := some false, sent := .still })).modPort 1
    (fun q => { q with prescaler := prescaler }))

/-- The frame in flight on deck 1's line after its slot line. -/
def sentBy (s : State) : Option Frame := ((after (.slotLine 1) s).port 1).flight.map Flight.frame

theorem test_slotLine_record : sentBy (on decked) = some .recordOff := by decide +kernel
theorem test_slotLine_transport :
    sentBy (polled 5 (fun k => { k with want := .play })) = some .play
    ∧ sentBy { polled 5 (fun k => { k with want := .play }) with part :=
        (polled 5 (fun k => { k with want := .play })).part.modPort 1 (fun q => { q with directHold := true }) } = none := by
  decide +kernel
theorem test_slotLine_speed :
    sentBy (polled 5 (fun k => { k with want := .play, sent := .play, transport := .play })) = some (.variableSpeed 256) := by
  decide +kernel
theorem test_slotLine_direct :
    let d (c : DirectCommand) : Option Direct := some { command := c, speed := 300, cue := some ⟨0, 0, 1, 0, .one⟩ }
    [DirectCommand.variableSpeed, .recordOff, .eject].map (fun c => sentBy (polled 5 (fun k => { k with direct := d c })))
      = [some (.variableSpeed 300), some .recordOff, some .eject]
    ∧ (sentBy (polled 5 (fun k => { k with direct := d .cueTo }))).isSome = true
    ∧ ((after (.slotLine 1) (polled 5 (fun k => { k with direct := d .cueTo }))).deck 1).sent = .cueTo 30
    ∧ sentBy (polled 1 (fun k => { k with direct := d .eject, line := .inLocal })) = some .poll := by decide +kernel
theorem test_slotLine_poll :
    sentBy (polled 1 id) = some .poll ∧ sentBy (polled 2 id) = none
    ∧ ((after (.slotLine 1) (polled 2 id)).port 1).prescaler = 1 := by decide +kernel
theorem witness_slotLine :
    ((on decked).part.port 0).flight = none ∧ ((on decked).part.deck 0).role = .recorder
    ∧ ((on decked).part.deck 0).sentRecord ≠ some ((on decked).part.deck 0).wantRecord
    ∧ (State.reset.part.deck 0).role = .noRole := by decide
/-- Deck 0 wants record ON, which was not sent. -/
theorem witness_recordOn :
    let s := on (fun p => (decked p).modDeck 0 (fun k => { k with wantRecord := true }))
    ((after (.slotLine 0) s).port 0).flight = some { frame := .recordOn 0, field := 0, bytes := [] } := by decide +kernel

/-- Deck 1 with a POLL in flight since field 7, its line turned to receive. -/
def awaiting (line : LineState) (timeouts : Nat) : State :=
  on (fun p => (((decked p).modDeck 1 (fun k => { k with line := line, timeouts := timeouts })).modPort 1
    (fun q => { q with flight := some { frame := .poll, field := 7, bytes := [] } })).modTcu (fun t => { t with settled := true }))

/-- A DONE reply of a STILL deck at 00:00:00:00. -/
def answered : DeckReply := ⟨false, 0, .still, true, false, false, 0, .zero, .ltc⟩

theorem witness_reply :
    ((awaiting .online 0).part.port 1).flight = some { frame := .poll, field := 7, bytes := [] }
    ∧ ((awaiting .online 0).part.port 1).sending = [] ∧ 7 ≠ (awaiting .online 0).part.rtu.fieldCount
    ∧ (State.reset.part.port 1).flight = none ∧ State.reset.part.tcu.settled = false
    ∧ ((awaiting .online 0).part.deck 1).position.preference = .vitcFirst
    ∧ 2 < ((awaiting .online 0).part.deck 1).position.vitcAge
    ∧ readLabel (awaiting .online 0).part.counting answered.label = some (⟨0, 0, 0, 0, .one⟩, false)
    ∧ readLabel (awaiting .online 0).part.counting ⟨0, 0, 0, 30, 0⟩ = none := by decide
theorem test_reply_position :
    ((after (.deckReplyGood 1 answered) (awaiting .online 0)).deck 1).position.source = .deck
    ∧ ((after (.deckReplyGood 1 { answered with transport := .noTape }) (awaiting .online 0)).deck 1).position.valid = false := by
  decide +kernel
/-- Deck d of an event in a phase answers a frame. -/
def replying (ph : Phase) (d : DeckNo) (f : Frame) (r : DeckReply) : Part :=
  let p := (on (fun p => (running ph plain p).modTcu (fun t => { t with settled := true }))).part
  after (.deckReplyGood d r) { State.reset with part := p.modPort d (fun q => { q with
    flight := some { frame := f, field := 0, bytes := [] } }) }

theorem test_reply_local :
    let p := replying .hold 1 .poll { answered with isLocal := true }
    (p.slot 5).run.reason = .deckLocal ∧ p.eds.phase = .idle ∧ p.noticeSet .deckLocal = true
    ∧ ((replying .postroll 1 .poll { answered with isLocal := true }).slot 5).state = .active := by decide +kernel
/-- The recorded fields are the reply's position and two fields for each frame of the record lead, which is 5. -/
theorem test_reply_recorded :
    ((replying .record 0 (.recordOn 1) answered).slot 5).run.recordOn = some 10
    ∧ ((replying .postroll 0 .recordOff answered).slot 5).run.recordOff = some 10
    ∧ ((replying .record 0 (.recordOn 1) { answered with refused := true }).slot 5).run.reason = .recordRefused
    ∧ ((replying .record 0 (.recordOn 1) { answered with refused := true }).deck 0).sentRecord = some false
    ∧ ((replying .roll 1 .play { answered with refused := true }).deck 1).sent = .unknown := by decide +kernel
theorem test_deck_lost :
    let s := { awaiting .online 7 with part := running .roll plain (awaiting .online 7).part }
    let t := { s with part := s.part.modDeck 1 (fun k => { k with timeouts := 7 }) }
    ((after (.deckTimeout 1) t).slot 5).run.reason = .deckLost := by decide +kernel
/-- The start bit of 0xC3 lasts 351.5625 luma sample periods, and its first data bit is a one; an idle line is at the
stop-bit level. -/
theorem test_transmitLevel :
    let q (n : Nat) : Port := { State.reset.part.port 1 with sending := [.poll], sent := n }
    [(q 0).transmitLevel, (q 351).transmitLevel, (q 352).transmitLevel, (State.reset.part.port 1).transmitLevel]
      = [false, false, true, true] := by decide +kernel
/-- A start bit that falls while the port sends begins no byte. -/
theorem test_receiving_afresh :
    let s := on (·.modPort 1 (fun q => { q with sending := [.poll] }))
    let t := { s.receiveDeckBit 1 false with part := after (.frameSendEnd 1) (s.receiveDeckBit 1 false) }
    (t.part.port 1).sending = [] ∧ ((t.receiveDeckBit 1 true).part.port 1).incoming = none
    ∧ ((t.receiveDeckBit 1 false).part.port 1).incoming = some [] := by decide +kernel
theorem witness_timeouts :
    ((awaiting .online 6).part.deck 1).timeouts < 7 ∧ ((awaiting .online 7).part.deck 1).timeouts = 7
    ∧ ((awaiting .absent 8).part.deck 1).line = .absent := by decide
/-- A frame still on the line when its transaction times out goes on to its last stop bit. -/
theorem test_frameGoesOn :
    let s := { awaiting .online 0 with part := (awaiting .online 0).part.modPort 1 (fun q => { q with sending := [.poll] }) }
    ((after (.deckTimeout 1) s).port 1).sending = [.poll] ∧ ((after (.deckTimeout 1) s).port 1).flight = none
    ∧ ((after (.frameSendEnd 1) s).port 1).sending = [] := by decide +kernel

/-! ### Chase -/

/-- A chasing player in a phase, its reading due and its recorder at a position. -/
def chasing (ph : Phase) (st : ChaseState) (recorderAt : Nat) (watch : Bool) : State :=
  let p := (on (fun p => reading .inWindow .vitcFirst 0 (running ph plain p))).part
  let q := (p.modDeck 1 (fun k => { k with chase := { k.chase with state := st } })).modDeck 0
    (fun k => { k with position := { moving 0 with position := recorderAt } })
  { State.reset with part := { q with chu := { q.chu with syncWatch := watch } } }

/-- Deck 1 after its reading, its error against the recorder being minus `recorderAt`. -/
def chased (ph : Phase) (st : ChaseState) (recorderAt : Nat) (watch : Bool) : Part :=
  after (.vitcReading .a zeroCells zeroCells) (chasing ph st recorderAt watch)

theorem witness_chase :
    let s := chasing .roll .pullIn 0 false
    (s.part.siu .a).state = .inWindow ∧ (s.part.siu .a).matchedField = some 0 ∧ s.part.holder .a = some 1
    ∧ s.part.recorder = some 0 ∧ s.part.tcu.settled = true ∧ (s.part.deck 1).position.preference = .vitcFirst
    ∧ s.part.rtu.fieldStartDue = false ∧ (s.part.deck 0).position.valid = true ∧ s.part.rtu.fieldId = .one := by decide
/-- The window is 60 fields, the record-sync limit 4, the unlock limit 2. -/
theorem test_chase_computes :
    ((chased .roll .pullIn 0 false).deck 1).chase = { state := .pullIn, error := 0, lockCount := 1, speed := 256 }
    ∧ ((chased .roll .pullIn 60 false).deck 1).chase = { state := .pullIn, error := -60, lockCount := 0, speed := 288 }
    ∧ ((chased .roll .locked 1 false).deck 1).chase.state = .locked
    ∧ ((chased .roll .locked 2 false).deck 1).chase.state = .pullIn := by decide +kernel
/-- Tables 2-6 and 2-7: phase ROLL, slot 5, RECORDER and PLAYER, and deck 1 ONLINE with its position valid, in PULL_IN at
an error of -60 fields; the EDS owns the preload. -/
theorem test_statusBytes_running :
    [14, 15, 19, 32, 33, 40, 41, 42, 71].map (fun k => (chased .roll .pullIn 60 false).statusBytes[k]?)
      = [3, 5, 2, 1, 1, 1, 1, 196, 2].map some := by decide +kernel
theorem test_chase_lost :
    ((chased .roll .pullIn 61 false).slot 5).run.reason = .chaseRange
    ∧ ((chased .postroll .pullIn 61 false).deck 1).chase.state = .lost := by decide +kernel
theorem test_chase_sync :
    ((chased .record .locked 5 true).slot 5).run.reason = .syncLost
    ∧ ((chased .record .locked 4 true).slot 5).state = .active := by decide +kernel
/-- The chasing player with a good reply of it to come, on the line or already over. -/
def chasingReply (recorderAt : Nat) (p : Part → Part) : State :=
  { State.reset with part := p ((chasing .roll .pullIn recorderAt false).part.modPort 1 (fun q =>
      { q with flight := some { frame := .poll, field := 0, bytes := [] } })) }

theorem witness_chase_reply :
    let s := chasingReply 60 id
    (s.part.port 1).flight.isSome = true ∧ (s.part.port 1).sending = [] ∧ (s.part.deck 1).role ≠ .recorder
    ∧ s.part.eds.phase ≠ .cue ∧ answered.isLocal = false ∧ s.part.recorder = some 0 ∧ s.part.tcu.settled = true
    ∧ 2 < (s.part.deck 1).position.vitcAge ∧ s.part.rtu.fieldStartDue = false := by decide +kernel
theorem test_chase_reply :
    ((after (.deckReplyGood 1 answered) (chasingReply 60 id)).deck 1).chase
      = { state := .pullIn, error := -60, lockCount := 0, speed := 288 }
    ∧ ((after (.deckReplyGood 1 answered) (chasingReply 61 id)).slot 5).run.reason = .chaseRange := by decide +kernel

/-- A computation held over the field start, the recorder at a position. -/
def heldChase (recorderAt : Nat) : State :=
  { State.reset with part := after (.deckReplyGood 1 answered) (chasingReply recorderAt (timed 225654)) }

theorem witness_chase_held :
    let s := heldChase 60
    (s.part.chu.own.get 1).pending = true ∧ (∀ x, x ≠ 1 → (s.part.chu.own.get x).pending = false)
    ∧ (∀ x, (s.part.deck x).role = .recorder ↔ x = 0) ∧ s.part.eds.phase = .roll ∧ s.part.eds.guardRunning = false
    ∧ s.part.pku.fullPending = false ∧ (s.part.eds.rollField + 2 ^ 24 - (s.part.deck 1).params.playLead) % 2 ^ 24 ≠ (s.part.rtu.fieldCount + 1) % 2 ^ 24
    ∧ (∀ x, (s.part.deck x).position.age ≤ 29 ∨ (s.part.deck x).position.valid = false)
    ∧ s.part.counting.sym ((60 : Int) - 2 * (108000 - 5)) < 0
    ∧ ∀ n : Fin 4, (s.part.gtu.gpis.get n).role = .noRole := by decide +kernel
/-- The field start makes it, whatever comes first; the first field after reset is of identity 2. -/
theorem test_chase_held :
    ((heldChase 60).part.deck 1).chase.error = 0
    ∧ ((after (.fieldStart 0 []) (heldChase 60)).deck 1).chase = { state := .pullIn, error := -60, lockCount := 0, speed := 288 }
    ∧ ((after (.fieldStart 0 [.guard, .advance 1 [.chase 1], .advance 0 []]) (heldChase 61)).slot 5).run.reason
        = .chaseRange := by decide +kernel
theorem test_chase_stale :
    let s := chasing .roll .pullIn 0 false
    let old (d : DeckNo) : State := { s with part := s.part.modDeck d (fun k => { k with position := { k.position with valid := true, age := 31 } }) }
    ((after (.positionStale 0) (old 0)).slot 5).run.reason = .positionStale
    ∧ ((after (.positionStale 1) (old 1)).slot 5).run.reason = .positionStale
    ∧ ((after (.positionStale 2) (old 2)).slot 5).state = .active := by decide +kernel

/-! ### The edit list -/

theorem witness_eventLoad :
    (eventRecordOf drop30 worked).isSome = true ∧ (State.reset.part.slot 5).state ≠ .active
    ∧ ((on (running .cue plain)).part.slot 5).state = .active := by decide +kernel
/-- The numbers outside Table 8-2 are clamped and listed; the key fill's skipped label is normalised in drop-frame counting. -/
theorem test_eventLoad_clamps :
    let ops := { worked with length := ⟨0, 0⟩, duration := 1000, preroll := 1801, key := { worked.key with gain := 0 } }
    let p := after (.eventLoad 0 ops) (on (·.modTcu (fun t => { t with dfMode := true })))
    (p.pku.building.map fun r => (r.result, r.clamped, r.normalised)) = [(.clamped, [4, 7, 12, 20], true)]
    ∧ (p.slot 5).event.map (fun e => (e.length, e.duration, e.preroll, e.key.map (·.gain))) = some (some 1, 999, 1800, some 1) := by
  decide +kernel
theorem witness_eventArm :
    (State.reset.part.slot 5).state = .empty ∧ ((on (slotted .loaded plain)).part.slot 5).state = .loaded
    ∧ (match ((on (slotted .loaded plain)).part.validateArm plain).outcome with
       | .ok r => r == (plainArm, false)
       | .error _ => false) = true := by decide +kernel

/-- The answer to the arm of slot 5 with an event. -/
def armAnswer (e : EventRecord) : Option (Result × Nat) := lastReply (after (.eventArm 0 5) (on (slotted .loaded e)))

/-- One refusal of each step of the arm validation, the limits at the value that fails first. -/
theorem test_arm_refusals :
    [{ plain with source1 := { deck := 2, play := stored 0 10 0 0 } }, { plain with recordIn := none }
     , { plain with recordIn := some (stored 0 0 4 29) }, { plain with recordIn := some (stored 23 59 59 0) }
     , { plain with transition := .mix }, { plain with start := 100 }, { plain with tracks := 0 }
     , { plain with pattern := 16 }, { plain with curve := 4 }].map armAnswer
      = [some (.state, 0), some (.noMark, 0), some (.badValue, 3), some (.badValue, 4), some (.badValue, 5)
         , some (.badValue, 6), some (.badValue, 15), some (.badValue, 8), some (.badValue, 9)]
    ∧ [{ plain with recordIn := some (stored 0 0 5 0) }, { plain with start := 99 }, { plain with pattern := 15 }
       , { plain with curve := 3 }].map armAnswer = List.replicate 4 (some (.accepted, 0)) := by decide +kernel

/-- The bytes of a payload, as numbers. -/
def lastPayload (p : Part) : List Nat := ((p.pku.building.getLast?.map (fun r => r.payload)).getD []).map BitVec.toNat

/-- The worked arming of section 8.6, its arm results byte by byte in the order of R129; the mark is spent. -/
theorem test_worked_arm :
    lastPayload (after (.eventArm 0 5) workedSlot)
      = [0, 1, 0, 0, 0, 8, 1, 0, 2, 0, 1, 0, 10, 0, 8, 0, 59, 55, 0, 8, 2, 1, 0, 10, 0, 0, 8, 0, 9, 55, 0, 8
         , 2, 0, 20, 0, 0, 8, 0, 19, 55, 0, 8, 1, 3, 0, 5, 0, 2, 8, 0, 4, 55, 0, 8, 0, 100, 1]
    ∧ (after (.eventArm 0 5) workedSlot).tcu.marks = [] := by decide +kernel

/-- MARK_POP returns the worked mark, 01:00:00;00 field 2 of deck 0 by G2 (R75). -/
theorem test_markPop_bytes : lastPayload (after (.markPop 0) workedSlot) = [1, 0, 0, 0, 9, 0, 2] := by decide +kernel

/-- The record of deck 2 after reset, in the order of Table 5-3. -/
theorem test_deckRead_bytes :
    lastPayload (after (.deckRead 0 2) State.reset)
      = [2, 0, 3, 0, 0, 0, 0, 0, 0] ++ [1, 0, 0, 0, 0, 0] ++ [0, 1, 0] ++ List.replicate 9 0 ++ [0, 0, 0, 0, 0, 0] ++ [2, 1, 0, 0]
        ++ [4, 90, 10, 5, 0, 90] ++ [0, 0, 0, 0, 0] ++ [0, 2, 255, 0, 0, 0, 255, 255, 0, 0, 0] ++ [0, 0, 0, 0, 1, 0]
        ++ [0, 0, 0, 0] := by decide +kernel

theorem witness_armedTimes :
    (workedSlot.part.slot 5).event.any (fun e => match (workedSlot.part.validateArm e).outcome with
      | .ok (r, normalised) => r.mark.isSome && r.source2.isSome && r.fill.isSome && r.durationClamped && !normalised
      | .error _ => false) = true
    ∧ ∀ m ∈ workedSlot.part.tcu.marks, m.position < workedSlot.part.counting.day := by decide +kernel

/-- An event read from an EMPTY slot: the event and arm parts follow their presence bytes with zeros (R37). -/
theorem test_eventRead_absent : (slotBytes drop30 Slot.empty).length = (slotBytes drop30 { Slot.empty with state := .done }).length
    ∧ (slotBytes drop30 Slot.empty).length = 99 := by decide +kernel

/-! ### Running an edit -/

/-- The result of LIST_RUN at slot 5 and the phase it leaves. -/
def runAnswer (s : State) : Option (Result × Nat) × Phase :=
  (lastReply (after (.listRun 0 5) s), (after (.listRun 0 5) s).eds.phase)

theorem witness_listRun :
    let s := on (slotted .armed plain)
    s.part.eds.phase = .idle ∧ (s.part.slot 5).state = .armed ∧ (s.part.slot 5).arm = some plainArm
    ∧ allDecks.all (fun d => (s.part.deck d).line != .inLocal && (s.part.deck d).line != .absent) = true := by decide
theorem test_listRun_forms :
    runAnswer (on (slotted .armed plain)) = (some (.accepted, 0), .cue)
    ∧ runAnswer (on (slotted .done plain)) = (some (.accepted, 0), .cue)
    ∧ runAnswer (on (slotted .failed { plain with tracks := 0 })) = (some (.badValue, 15), .idle)
    ∧ runAnswer State.reset = (some (.state, 0), .idle)
    ∧ runAnswer (on (running .cue plain)) = (some (.busy, 0), .cue) := by decide +kernel
theorem test_listRun_away :
    let s := on (fun p => (slotted .armed plain p).modDeck 1 (fun k => { k with line := .inLocal }))
    runAnswer s = (some (.accepted, 0), .idle) ∧ ((after (.listRun 0 5) s).slot 5).run.reason = .deckLocal := by decide +kernel
theorem witness_release :
    let s := on (fun p => (running .hold plain p).modRtu (fun r => { r with lock := .locked }))
    s.part.eds.phase = .hold ∧ s.part.rtu.lock = .locked ∧ s.part.activeEvent ≠ none := by decide

/-- The roll field is two fields and the largest play lead, which is 10, on; both backgrounds are deck 1's input. -/
theorem test_release_rolls :
    let p := after (.release 0) (on (fun p => (running .hold plain p).modRtu (fun r => { r with lock := .locked, fieldCount := 3 })))
    p.eds.phase = .roll ∧ p.eds.rollField = 15 ∧ p.mep.owner = .eds
    ∧ (p.mep.preload.bg1, p.mep.preload.bg2, p.mep.preload.keyOn) = (.a, .a, false) := by decide +kernel

/-- An OPEN event in RECORD. -/
def open_ : State := on (running .record { plain with length := none })

theorem witness_endOpen :
    open_.part.eds.phase = .record ∧ open_.part.eds.outPoint = none
    ∧ open_.part.activeEvent = some { plain with length := none } ∧ open_.part.recorder = some 0 := by decide
theorem test_endOpen_refused :
    lastReply (after (.endOpen 0) State.reset) = some (.state, 0)
    ∧ lastReply (after (.endOpen 0) (on (running .record plain))) = some (.state, 0) := by decide +kernel
theorem witness_abort :
    let s := on (running .record plain)
    s.part.eds.active = some 5 ∧ s.part.eds.phase ≠ .idle ∧ s.part.mep.owner = .eds
    ∧ (on (running .hold plain)).part.mep.owner = .host ∧ State.reset.part.eds.phase = .idle := by decide
theorem test_abort_cue :
    let p := after (.abort 0) (on (running .cue plain))
    (p.slot 5).state = .aborted ∧ (p.slot 5).run.reason = .hostAbort ∧ (p.deck 1).want = .still := by decide +kernel
theorem witness_cueTimeout :
    let s := on (cueing 0)
    s.part.eds.active = some 5 ∧ s.part.eds.phase = .cue
    ∧ s.part.eds.cues.get 1 = some { state := .waiting, misses := 0, timer := 0 } := by decide
theorem witness_guardTrip :
    let s := on (guarded 10)
    s.part.eds.guardRunning = true ∧ s.part.eds.guardLimit ≤ s.part.eds.guardCount := by decide
theorem witness_rollPlay :
    let s := on (fun p => (running .roll plain p).modEds (fun e => { e with rollField := 10 }))
    s.part.eds.phase = .roll ∧ s.part.inActiveEvent 1 = true ∧ s.part.inActiveEvent 0 = true
    ∧ (10 + 2 ^ 24 - (s.part.deck 1).params.playLead) % 2 ^ 24 = s.part.rtu.fieldCount
    ∧ (10 + 2 ^ 24 - (s.part.deck 0).params.playLead) % 2 ^ 24 = s.part.rtu.fieldCount ∧ (s.part.deck 1).role ≠ .recorder
    ∧ s.part.activeArm = some plainArm ∧ ((plainArm.source1 :: (plainArm.source2.toList ++ plainArm.fill.toList)).find?
      (fun y => y.deck == 1)).map ArmedDeck.inPoint = some 18000 := by decide
theorem witness_postroll :
    let s := on (fun p => (running .postroll plain p).modEds (fun e => { e with stopRequest := true }))
    s.part.eds.phase = .postroll ∧ s.part.eds.postroll = 0 ∧ s.part.eds.active = some 5
    ∧ s.part.eds.stopRequest = true := by decide

/-- Where the cursor arrives after the end of slot 5, slot 7 holding an event in a state, and what becomes of slot 7. -/
def arriving (st : SlotState) (e : EventRecord) (f : Part → Part) : Nat × Phase × SlotState :=
  let p := after .postrollEnd (on (fun p => f ((running .postroll plain p).modSlot 7 (fun x => { x with
    state := st, event := if st = .empty then none else some e, arm := if st = .armed then some plainArm else none }))))
  (p.eds.cursor.val, p.eds.phase, (p.slot 7).state)

theorem test_cursor_arrives :
    arriving .armed plain id = (7, .cue, .active) ∧ arriving .done plain id = (7, .cue, .active)
    ∧ arriving .loaded { plain with tracks := 0 } id = (7, .idle, .loaded)
    ∧ arriving .armed plain (·.modDeck 1 (fun k => { k with line := .absent })) = (7, .idle, .failed)
    ∧ arriving .empty plain id = (63, .idle, .empty) := by decide +kernel

/-- Deck 1 of an event in CUE under LOCKED, its cue taken and its deck standing at a frame count; deck 0 has reached cue. -/
def judging (hold : Hold) (frame misses : Nat) (cue : CueState) : State :=
  let p := (((running .cue { plain with hold := hold } (on id).part).setCue 0 { state := .reached, misses := 0, timer := 9 }).setCue 1
    { state := cue, misses := misses, timer := 9 }).modRtu (fun r => { r with lock := .locked })
  let q := (p.modPort 1 (fun x => { x with flight := some { frame := .cueTo 17850 [], field := 0, bytes := [] } })).modDeck 1
    (fun k => { k with position := { moving 0 with position := 2 * frame } })
  { State.reset with part := q }

/-- The phase and deck 1's cue after its DONE reply in STILL. -/
def judgedCue (s : State) : Phase × Option (CueState × Nat) :=
  let p := after (.deckReplyGood 1 answered) s
  (p.eds.phase, (p.eds.cues.get 1).map (fun c => (c.state, c.misses)))

theorem witness_cue :
    let s := judging .noHold 17850 0 .taken
    (s.part.port 1).flight.map Flight.frame = some (.cueTo 17850 []) ∧ (s.part.port 1).sending = []
    ∧ (s.part.deck 1).role ≠ .recorder ∧ ((plainArm.source1 :: (plainArm.source2.toList ++ plainArm.fill.toList)).find?
      (fun y => y.deck == 1)).map ArmedDeck.cue = some 17850 ∧ s.part.eds.phase = .cue ∧ (s.part.deck 1).line = .online
    ∧ s.part.inActiveEvent 1 = true := by decide
theorem test_cue_reached : (judgedCue (judging .noHold 17850 0 .waiting)).1 = .roll := by decide +kernel
theorem test_cue_hold : (judgedCue (judging .beforeRoll 17850 0 .taken)).1 = .hold := by decide +kernel
theorem test_cue_missed :
    judgedCue (judging .noHold 17851 0 .taken) = (.cue, some (.waiting, 1))
    ∧ (judgedCue (judging .noHold 17851 1 .taken)).1 = .idle := by decide +kernel

/-! ### Mix/effects -/

theorem witness_take :
    let s := on (fun p => ((running .roll plain p).modRtu (fun r => { r with lock := .freewheel })).modMep
      (fun m => { m with preload := { m.preload with bg1 := .a } }))
    s.part.rtu.lock = .freewheel ∧ s.part.mep.owner = .eds ∧ (s.part.siu .a).state ≠ .inWindow
    ∧ ((after .activeSetTake s).slot 5).run.substituted = true
    ∧ (after .activeSetTake State.reset).mep.active.onAir = false := by decide +kernel
theorem witness_autoTake :
    let s := on (·.modMep (fun _ => taking 5))
    s.part.mep.owner = .auto ∧ s.part.mep.take = some { kind := .mix, duration := 4, curve := 0, count := 5 } ∧ 4 < 5
    ∧ s.part.pku.fullPending = false ∧ s.part.eds.phase = .idle ∧ s.part.eds.active = none := by decide
theorem test_autoTake_fieldStart :
    (after (.fieldStart 0 []) (on (·.modMep (fun _ => taking 3)))).mep.preload.level = 1024
    ∧ (after (.fieldStart 0 [.autoTake]) (on (·.modMep (fun _ => taking 4)))).mep.owner = .host := by decide +kernel
theorem witness_tables :
    shapeOf 4 = some .diag ∧ State.reset.part.activeEvent = none ∧ State.reset.part.mep.owner ≠ .auto
    ∧ (on (running .cue plain)).part.activeEvent.map (·.pattern) = some 0
    ∧ (on (running .cue { plain with curve := 1 })).part.activeEvent.map (·.curve) = some 1
    ∧ (taking 0).owner = .auto ∧ (taking 0).take.map (·.curve) = some 0 := by decide
theorem test_tables_busy :
    lastReply (after (.patternLoad 0 0 0 1 1 0) (on (running .cue plain))) = some (.busy, 0)
    ∧ lastReply (after (.curveLoad 0 1 (List.range 17)) (on (running .cue { plain with curve := 1 }))) = some (.busy, 0)
    ∧ lastReply (after (.patternLoad 0 0 0 1 1 0) (on (·.modMep (fun _ => taking 0)))) = some (.busy, 0) := by decide +kernel
theorem witness_samples :
    [blackLine.luma, blackLine.cb, blackLine.cr].all (fun c => c.all (fun v => decide (4 ≤ v ∧ v ≤ 1019))) = true
    ∧ Mep.reset.active.params.level ≤ 1024 := by decide +kernel
theorem witness_activeLine :
    let look : LookUp := { field := 0, line := 21, found := none }
    let p := (on (fun p => (p.modMep (fun m => { m with active := { m.active with onAir := true } })).modSiu .a (fun u => { u with
      lookedUp := some look }))).part
    (p.siu .a).lookedUp = some look ∧ look.field = sent30.count ∧ look.line = 21
    ∧ Config.firstActive sent30.std sent30.id ≤ 21 ∧ 21 ≤ Config.fieldLines sent30.std sent30.id ∧ p.mep.active.onAir = true := by
  decide

/-! ### Console -/

theorem witness_console : gpiRoleOf 3 = some .allStop ∧ edgeOf 1 = some .falling ∧ tallyRoleOf 6 = some .sourceC := by decide
/-- ON_AIR follows the recorder's last-sent record level, EDIT_ACTIVE the ACTIVE slot. -/
theorem test_tally :
    let lit (role : Nat) (s : State) : Bool := (after (.tallyConfig 0 2 role) s).tallyLit 2
    let sent := on (fun p => (decked p).modDeck 0 (fun k => { k with sentRecord := some true }))
    lit 2 sent = true ∧ lit 2 (on decked) = false ∧ lit 3 (on (running .cue plain)) = true ∧ lit 3 sent = false
    ∧ lit 1 State.reset = true ∧ lit 0 sent = false := by decide +kernel

/-- A part with GPI input 1 in a role, high against an accepted low, its run count at a value against a debounce of 2. -/
def pressing (role : GpiRole) (edge : Edge) (run : Nat) (p : Part) : Part :=
  let g : Gpi := { role := role, edge := edge, debounce := 2, markDeck := 0, lastSample := true, accepted := false, run := run }
  p.modGtu (fun u => { u with gpis := u.gpis.set 1 g })

/-- The run count has reached its debounce. -/
def pressed (role : GpiRole) (edge : Edge) : State := on (pressing role edge 2)

theorem witness_edge :
    let g := (pressed .mark .rising).part.gtu.gpis.get 1
    g.lastSample ≠ g.accepted ∧ g.debounce ≤ g.run ∧ ((g.edge == .rising) == g.lastSample) = true := by decide
theorem witness_edge_falling :
    let g := (pressed .mark .falling).part.gtu.gpis.get 1
    ((g.edge == .rising) == g.lastSample) = false := by decide
theorem test_edge_release : (after (.gpiAcceptedEdge 1) (pressed .trigger .rising)).eds.latch = true := by decide +kernel
theorem test_edge_refusedMark : (after (.gpiAcceptedEdge 1) (pressed .mark .rising)).noticeSet .markRefused = true := by
  decide +kernel
/-- The second sample of a run of two is accepted at the field start, a first one is not. -/
theorem test_edge_fieldStart :
    (after (.fieldStart 2 []) (on (pressing .trigger .rising 1))).eds.latch = true
    ∧ (after (.fieldStart 2 []) (on (pressing .trigger .rising 0))).eds.latch = false
    ∧ (after (.fieldStart 0 []) (on (pressing .trigger .rising 1))).eds.latch = false := by decide +kernel
theorem test_edge_endsOpen :
    let s := { open_ with part := pressing .trigger .rising 2 open_.part }
    (after (.gpiAcceptedEdge 1) s).eds.outPoint = some 5 ∧ ((after (.gpiAcceptedEdge 1) s).deck 0).wantRecord = false := by
  decide +kernel
theorem test_edge_hold :
    let s := on (fun p => pressing .trigger .rising 2 ((running .hold plain p).modRtu (fun r => { r with lock := .locked })))
    (after (.gpiAcceptedEdge 1) s).eds.phase = .roll := by decide +kernel
theorem test_edge_allStop :
    let p := after (.gpiAcceptedEdge 1) (on (fun p => pressing .allStop .rising 2 (running .record plain p)))
    (p.slot 5).run.reason = .allStop ∧ (p.deck 1).want = .stop ∧ (p.deck 0).wantRecord = false
    ∧ p.noticeSet .listEnd = true := by decide +kernel

/-! ### The record span -/

/-- The event under way in a phase, the EDS owning the preload, the player locked and the recorder in PLAY, one field
before a position. -/
def spanning (ph : Phase) (e : EventRecord) (position : Nat) : State :=
  let p := (running ph e (young (on id).part)).modRtu (fun r => { r with lock := .locked })
  let q := (p.modDeck 1 (fun k => { k with chase := { k.chase with state := .locked } })).modDeck 0 (fun k => { k with
    transport := .play, wantRecord := ph == .record, position := { moving 0 with position := position - 1 } })
  let q := q.modEds (fun x => { x with rollField := 500, outPoint := plainArm.outPoint, postroll := if ph = .postroll then 3 else 0 })
  { State.reset with part := { q with chu := { q.chu with syncWatch := ph == .record } } }

/-- The phase after a field start, whether record ON is wanted, and the slot's state and reason. -/
def spanned (s : State) : Phase × Bool × SlotState × Reason :=
  let p := after (.fieldStart 0 []) s
  (p.eds.phase, (p.deck 0).wantRecord, (p.slot 5).state, (p.slot 5).run.reason)

theorem witness_span :
    let s := spanning .roll plain 215990
    s.part.pku.fullPending = false ∧ s.part.eds.active = some 5 ∧ (s.part.slot 5).arm = some plainArm
    ∧ s.part.recorder = some 0 ∧ (s.part.deck 0).position.valid = true ∧ (s.part.deck 0).transport = .play
    ∧ s.part.mep.owner = .eds ∧ s.part.eds.guardRunning = false
    ∧ allDecks.all (fun d => decide ((s.part.deck d).position.age < 30) && !(s.part.chu.own.get d).pending
        && (500 + 2 ^ 24 - (s.part.deck d).params.playLead) % 2 ^ 24 != (s.part.rtu.fieldCount + 1) % 2 ^ 24) = true := by decide
/-- The in-point is frame 108000, position 216000, and the record lead 5 frames. -/
theorem test_span_decision :
    spanned (spanning .roll plain 215989) = (.roll, false, .active, .noReason)
    ∧ spanned (spanning .roll plain 215990) = (.record, true, .active, .noReason)
    ∧ spanned (spanning .roll { plain with kind := .preview } 215990) = (.record, false, .active, .noReason) := by decide +kernel
theorem test_span_refused :
    let s := spanning .roll plain 215990
    let off : State := { s with part := s.part.modDeck 1 (fun k => { k with chase := { k.chase with state := .pullIn } }) }
    spanned off = (.idle, false, .failed, .notLocked)
    ∧ spanned { s with part := s.part.modDeck 0 (fun k => { k with inhibit := true }) } = (.idle, false, .failed, .recordRefused)
    ∧ spanned { s with part := s.part.modRtu (fun r => { r with lock := .freewheel }) } = (.idle, false, .failed, .refLost) := by
  decide +kernel
/-- The out-point is frame 108100, position 216200. -/
theorem test_span_out :
    spanned (spanning .record plain 216189) = (.record, true, .active, .noReason)
    ∧ spanned (spanning .record plain 216190) = (.record, false, .active, .noReason)
    ∧ spanned (spanning .record plain 216200) = (.postroll, false, .active, .noReason)
    ∧ (after (.fieldStart 0 []) (spanning .record plain 216200)).eds.postroll = 60
    ∧ spanned (spanning .record { plain with postroll := 0 } 216200) = (.idle, false, .done, .noReason) := by decide +kernel
theorem test_span_level :
    (after (.fieldStart 0 []) (spanning .record plain 215999)).mep.preload.level = 0
    ∧ (after (.fieldStart 0 []) (spanning .record plain 216000)).mep.preload.level = 1024
    ∧ spanned (spanning .postroll plain 216300) = (.postroll, false, .active, .noReason) := by decide +kernel

/-! ## Events, one step each -/

theorem test_eighth_timeout :
    ((after (.deckTimeout 1) (awaiting .online 7)).deck 1).line = .absent
    ∧ (after (.deckTimeout 1) (awaiting .online 7)).noticeSet .deckAbsent = true := by decide +kernel
theorem test_second_miss : (after (.refFieldBad .overrun) (rtuAt .locked 0 1 none)).rtu.lock = .freewheel := by decide +kernel
theorem test_confirming : (after (.refFieldWellFormed field30 0) (rtuAt .acquire 3 0 (some .sys30))).rtu.lock = .locked := by
  decide +kernel
theorem test_queue_order :
    step { State.reset with pending := [.markClear 0, .markPop 1] } = exec (.markClear 0) { State.reset with pending := [.markPop 1] } :=
  rfl

end Sys2Proof.Tests
end

section
/-! ## Resets (O3, O5, O7)

The value of every field after a reset is a computation on the reset state; what is left to show is the
case split that each command makes before it resets. -/

namespace Sys2Proof.Machine

open Sys2Proof

/-- Power-on leaves exactly the notice REF_LOST set (R33). -/
theorem Pku.reset_noticeSet (n : Notice) : (Part.reset .powerOn).noticeSet n = (n == .refLost) := by
  cases n <;> rfl

/-- A reset enables every notice (R34). -/
theorem Pku.reset_mask (cause : ResetCause) (n : Notice) : (Pku.reset cause).mask.getLsbD n.bit = true := by
  have in_range : n.bit < 18 := by cases n <;> decide
  exact BitVec.getLsbD_allOnes.trans (decide_eq_true in_range)

/-- A reset leaves every deck without a role, unknown on its line and without a position, and every port idle. -/
theorem Part.reset_deck (cause : ResetCause) (d : DeckNo) :
    let p := Part.reset cause
    (p.deck d).role = .noRole ∧ (p.deck d).line = .unknown ∧ (p.deck d).position.valid = false
    ∧ (p.port d).flight = none ∧ (p.port d).prescaler = 0 := by
  fin_cases d <;> exact ⟨rfl, rfl, rfl, rfl, rfl⟩

/-- A reset empties every slot (R117). -/
theorem Part.reset_slot (cause : ResetCause) (n : SlotNo) : (Part.reset cause).slot n = Slot.empty :=
  Table.get_replicate 64 Slot.empty n

/-- Power-on leaves a state of which every promise of Safety.lean holds. -/
theorem Part.reset_sound :
    let p := Part.reset .powerOn
    p.engineSound = true ∧ p.tableSound = true ∧ p.recordSound = true ∧ p.mixerSound = true
    ∧ p.referenceSound = true ∧ p.positionsSound = true ∧ p.consoleSound = true ∧ p.countersSound = true := by
  decide +kernel

/-- Settles O3: the fields by computation, the promises by evaluating their checks on the reset state. -/
theorem resetState : Obligations.ResetState :=
  ⟨rfl, rfl, rfl, rfl, rfl, rfl, rfl, rfl, rfl, rfl, Pku.reset_noticeSet, Pku.reset_mask _, rfl, rfl, rfl, rfl,
    Part.reset_deck _, rfl, Part.reset_slot _, rfl, rfl, rfl, rfl, rfl, Part.reset_sound⟩

/-- Settles O5: a case split on the event that is active, and on the scope. -/
theorem resetCommands : Obligations.ResetCommands := by
  intro s off scope restarted asked
  refine ⟨rfl, rfl, fun idle => ?_, fun active => ?_, rfl, fun other => ?_⟩
  · have none_active : s.part.eventActive = false := by simp [Part.eventActive, idle]
    simp only [exec, execResetPartFull, Part.askFullReset, none_active]
    rfl
  · have one_active : s.part.eventActive = true := by simpa [Part.eventActive, Option.isSome_iff_ne_none] using active
    simp only [exec, execResetPartFull, Part.askFullReset, one_active]
    rfl
  · obtain ⟨n, rfl⟩ := Nat.exists_eq_add_of_le' other
    rfl

/-- Settles O7: with a reset pending FIELD_START and RESET_PART_FULL_APPLY take the branch that applies it. -/
theorem fullResetApplies : Obligations.FullResetApplies := by
  intro s pins order pending applied
  constructor
  · simp only [exec, execFieldStart, Part.fieldStart, Part.modGtu_pku, pending]
    rfl
  · simp only [exec, execResetPartFullApply, pending]
    rfl

end Sys2Proof.Machine
end

section
/-! ## The take of the active set (O51) -/

namespace Sys2Proof.Machine

open Sys2Proof

/-- A source shows an input exactly where it is that input's own source. -/
theorem Source.input_eq_some (x : Source) (i : Input) : x.input = some i ↔ x = sourceOfInput i := by
  cases x <;> cases i <;> simp [Source.input, sourceOfInput]

/-- The substitution decision that the take reads for an input (R155). -/
theorem Part.takenSet_subst (p : Part) (i : Input) : p.takenSet.subst.get i.idx = p.substituteOf i := by
  cases i <;> rfl

/-- An input is substituted in the set taken exactly where it is not IN_WINDOW (R155). -/
theorem Part.takenSet_substituted (p : Part) (i : Input) :
    p.takenSet.substituted i = true ↔ (p.siu i).state ≠ .inWindow := by
  rw [ActiveSet.substituted, p.takenSet_subst, Part.substituteOf]
  split <;> simp_all

/-- The active lines carry the MEP's pictures in LOCKED and FREEWHEEL (R16). -/
theorem Part.takenSet_onAir (p : Part) :
    p.takenSet.onAir = true ↔ p.rtu.lock = .locked ∨ p.rtu.lock = .freewheel := by
  simp [Part.takenSet]

/-- When an input is in use in a set (R172). -/
theorem ActiveSet.uses_iff (a : ActiveSet) (i : Input) :
    a.uses i = true ↔ a.params.bg1 = sourceOfInput i ∨ a.params.bg2 = sourceOfInput i
      ∨ (a.params.keyOn = true ∧ (a.params.fill = sourceOfInput i ∨ a.params.keyInput = i)) := by
  simp [ActiveSet.uses, Source.input_eq_some, or_assoc]

/-- When a set reports a substitution to the EDS (R172). -/
theorem ActiveSet.reportsSubstitution_iff (a : ActiveSet) :
    a.reportsSubstitution = true ↔ a.owner = .eds ∧ ∃ i, a.uses i = true ∧ a.substituted i = true := by
  simp only [ActiveSet.reportsSubstitution, Bool.and_eq_true, beq_iff_eq, List.any_eq_true]
  exact and_congr_right fun _ => ⟨fun ⟨i, _, h⟩ => ⟨i, h⟩, fun ⟨i, h⟩ => ⟨i, mem_allInputs i, h⟩⟩

/-- When an input contributes to PGM (R172). -/
theorem ActiveSet.contributes_iff (a : ActiveSet) (i : Input) :
    a.contributes i = true ↔ a.onAir = true ∧ a.substituted i = false
      ∧ ((a.params.bg1 = sourceOfInput i ∧ a.params.level < fullLevel a.params.transition)
        ∨ (a.params.bg2 = sourceOfInput i ∧ 0 < a.params.level)
        ∨ (a.params.fill = sourceOfInput i ∧ a.params.keyOn = true)) := by
  simp [ActiveSet.contributes, Source.input_eq_some, or_assoc, and_assoc]

/-- What the take writes into the mixer: the set and each input's contribution (R157, R172). -/
theorem Part.takeActiveSet_mep (p : Part) :
    p.takeActiveSet.mep = { p.mep with active := p.takenSet, contrib := p.takeActiveSet.mep.contrib }
    ∧ ∀ i : Input, p.takeActiveSet.mep.contrib.get i.idx = p.takenSet.contributes i := by
  unfold Part.takeActiveSet
  dsimp only
  split <;> exact ⟨rfl, fun i => by cases i <;> rfl⟩

/-- Beside the mixer the take changes slots only. -/
theorem Part.takeActiveSet_frame (p : Part) :
    p.takeActiveSet = { p with mep := p.takeActiveSet.mep, eds := { p.eds with slots := p.takeActiveSet.eds.slots } } := by
  unfold Part.takeActiveSet
  dsimp only
  split <;> rfl

/-- The take marks the active slot where the set reports a substitution, and no other (R143). -/
theorem Part.takeActiveSet_slot (p : Part) (n : SlotNo) :
    p.takeActiveSet.slot n =
      if p.takenSet.reportsSubstitution = true ∧ p.eds.active = some n then
        { p.slot n with run := { (p.slot n).run with substituted := true } }
      else p.slot n := by
  unfold Part.takeActiveSet
  dsimp only
  split
  case h_1 m reports active =>
    by_cases same : n = m
    · subst same
      simp only [reports, active, and_self, if_true, Part.modSlot_slot_self]
      rfl
    · have other : p.eds.active ≠ some n := by simpa [active] using Ne.symm same
      simp only [other, and_false, if_false]
      exact Part.modSlot_slot_ne _ _ same
  case h_2 quiet =>
    rw [if_neg (fun ⟨reports, active⟩ => quiet n reports active)]
    rfl

/-- Settles O51: the part after the take is read off from what the take does to the mixer and to each slot. -/
theorem activeSetTaken : Obligations.ActiveSetTaken := by
  intro s m own live there inUse full reports
  have own_eq (i : Input) : own i = sourceOfInput i := by cases i <;> rfl
  have full_eq : full = fullLevel m.transition := by
    simp only [full]
    cases m.transition <;> rfl
  have reports_iff : s.part.takenSet.reportsSubstitution = true ↔ reports := by
    simp only [ActiveSet.reportsSubstitution_iff, ActiveSet.uses_iff, Part.takenSet_substituted, reports, inUse, own_eq]
    rfl
  obtain ⟨mep_eq, contrib_eq⟩ := s.part.takeActiveSet_mep
  have active_eq : s.part.takeActiveSet.mep.active = s.part.takenSet := by rw [mep_eq]
  refine ⟨s.part.takeActiveSet, rfl, ?_, ?_, ?_, ?_, ?_, ?_, ?_, ?_, ?_⟩
  · rw [active_eq]; rfl
  · rw [active_eq]; rfl
  · rw [active_eq]; rfl
  · rw [active_eq]; rfl
  · intro i
    rw [active_eq, Part.takenSet_subst]
    rfl
  · rw [active_eq, Part.takenSet_onAir]
  · intro i
    have substituted_iff : s.part.takenSet.substituted i = false ↔ there i := by
      rw [← Bool.not_eq_true, Part.takenSet_substituted, not_not]
    rw [contrib_eq, ActiveSet.contributes_iff, Part.takenSet_onAir, substituted_iff, own_eq, full_eq]
    rfl
  · intro n
    rw [Part.takeActiveSet_slot]
    exact ⟨fun reported active => if_pos ⟨reports_iff.2 reported, active⟩,
      fun spared => if_neg fun ⟨reported, active⟩ => spared.elim (· (reports_iff.1 reported)) (· active)⟩
  · conv_lhs => rw [s.part.takeActiveSet_frame, mep_eq]
    rw [active_eq]

end Sys2Proof.Machine
end

section
/-! ## The idle step (O2)

One membership lemma for the rows that fall due, from those of its parts; each clause of the statement reads one
constructor off it. -/

namespace Sys2Proof.Machine

open Sys2Proof

/-- The rows of the lines that begin at an instant (R26, R29, R94, R157). -/
theorem Part.mem_lineEvents (p : Part) (c : Instr) :
    c ∈ p.lineEvents ↔
      (c = .statusBlockWrite ∧ p.rtu.timing.elapsed = (p.pku.inUse.status + 1) * p.rtu.sentLine)
      ∨ (c = .replyRecordWrite ∧ p.rtu.timing.elapsed = (p.pku.inUse.status + 2) * p.rtu.sentLine)
      ∨ (∃ d, c = .slotLine d ∧ p.rtu.timing.elapsed = ((p.port d).slotLine - 1) * p.rtu.sentLine)
      ∨ (c = .activeSetTake ∧ p.rtu.timing.elapsed
          = (Config.firstActive p.rtu.timing.sentStd p.rtu.fieldId + 1) * p.rtu.sentLine) := by
  have one {P : Prop} [Decidable P] {x : Instr} : c ∈ (if P then [x] else []) ↔ c = x ∧ P := by
    by_cases h : P <;> simp [h]
  have slot_lines : c ∈ p.slotLinesNow.map Instr.slotLine ↔
      ∃ d, c = .slotLine d ∧ p.rtu.referenceLineNow (p.port d).slotLine = true := by
    simp only [Part.slotLinesNow, List.mem_map, List.mem_filter]
    exact ⟨fun ⟨d, ⟨_, now⟩, e⟩ => ⟨d, e.symm, now⟩, fun ⟨d, e, now⟩ => ⟨d, ⟨mem_allDecks d, now⟩, e.symm⟩⟩
  simp only [Part.lineEvents, List.mem_append, one, slot_lines, Rtu.outputLineNow, Rtu.referenceLineNow, beq_iff_eq,
    or_assoc]

/-- The rows that fall due at an instant. -/
theorem Part.mem_dueEvents (p : Part) (c : Instr) :
    c ∈ p.dueEvents ↔
      (p.rtu.fieldStartDue = true ∧ c = .fieldStart p.gtu.pins [])
      ∨ (p.rtu.fieldStartDue = false ∧ c ∈ p.lineEvents)
      ∨ c ∈ p.slipEvents ∨ c ∈ p.silenceEvents ∨ c ∈ p.sendEndEvents := by
  cases due : p.rtu.fieldStartDue <;> simp [Part.dueEvents, due]

/-- When a field start is due (R3; log entry 37). -/
theorem Rtu.fieldStartDue_iff (r : Rtu) :
    r.fieldStartDue = true ↔
      r.timing.owes ≠ none ∨ Config.fieldLen r.std r.timing.counted ≤ r.timing.elapsed - r.timing.placed := by
  simp [Rtu.fieldStartDue, Option.isSome_iff_ne_none]

/-- A field start that is due stands before everything else. -/
theorem Part.head_dueEvents (p : Part) (due : p.rtu.fieldStartDue = true) :
    p.dueEvents.head? = some (.fieldStart p.gtu.pins []) := by
  simp [Part.dueEvents, due]

/-- The output line that begins at this instant, by its field and number (R15). -/
theorem Rtu.outputLineStart_line (r : Rtu) (f : OutputField) (n : Nat) :
    (r.outputLineStart = some f ∧ f.line = n) ↔
      r.outputField = some f ∧ f.since = (n + 1) * Config.lineLen f.std
        ∧ 1 ≤ n ∧ n ≤ Config.fieldLines f.std f.id := by
  rw [Rtu.outputLineStart_eq_some]
  constructor
  · rintro ⟨⟨sent, since, line⟩, rfl⟩
    exact ⟨sent, since, of_decide_eq_true line⟩
  · rintro ⟨sent, since, line⟩
    obtain ⟨-, rfl⟩ := (f.lineBegins_line n line.1).2 since
    exact ⟨⟨sent, since, decide_eq_true line⟩, rfl⟩

/-- A store slip falls due in a luma sample period where the line that begins is not in the store (R47). -/
theorem Part.mem_tick_slipEvents (p : Part) (c : Instr) :
    c ∈ p.tick.slipEvents ↔ ∃ i n, c = .storeSlip i n
      ∧ ∃ f, (p.rtu.ticked.outputLineStart = some f ∧ f.line = n) ∧ (p.siu i).storedFor f.count n = none := by
  have slips_iff (i : Input) (f : OutputField) (begins : p.rtu.ticked.outputLineStart = some f) :
      (p.tick.siu i).slips f.count f.line = true ↔ (p.siu i).storedFor f.count f.line = none := by
    rw [Part.tick_siu, begins, Siu.slips, Siu.ticked_lookUpFor, Option.isNone_iff_eq_none]
    rfl
  rw [Part.mem_slipEvents]
  constructor
  · rintro ⟨i, f, rfl, begins, slips⟩
    exact ⟨i, f.line, rfl, f, ⟨begins, rfl⟩, (slips_iff i f begins).1 slips⟩
  · rintro ⟨i, _, rfl, f, ⟨begins, rfl⟩, missing⟩
    exact ⟨i, f, rfl, begins, (slips_iff i f begins).2 missing⟩

/-- When an input comes to be judged without a signal (R42). -/
theorem Siu.noSignalDue_iff (u : Siu) (std : Standard) :
    u.noSignalDue std = true ↔
      longerField std ≤ u.quiet ∧ ¬ (u.state = .noSignal ∧ u.clean = 0 ∧ u.matchedField = none) := by
  simp only [Siu.noSignalDue, Bool.and_eq_true, decide_eq_true_eq, Bool.or_eq_true, bne_iff_ne, Option.isSome_iff_ne_none]
  tauto

/-- A luma sample period changes the time of a frame on the line and nothing else of a port (R89). -/
theorem Port.ticked_eq (q : Port) :
    q.ticked = { q with sent := if q.sending = [] then q.sent else q.sent + 1 } := by
  by_cases idle : q.sending = []
  · rw [if_pos idle, Port.ticked, if_neg (by simp [Port.drives, idle])]
  · rw [if_neg idle, Port.ticked, if_pos (by simpa [Port.drives] using idle)]

/-- The frame on a deck line ends in the luma sample period in which the time of its bits has passed (R89). -/
theorem Port.ticked_sendEndDue_iff (q : Port) :
    q.ticked.sendEndDue = true ↔
      ∃ f rest, q.sending = f :: rest ∧ bitSixteenths * (11 * f.bytes.length) ≤ 16 * (q.sent + 1) := by
  have counts (f : Frame) (rest : List Frame) (sending : q.sending = f :: rest) : q.ticked.sent = q.sent + 1 := by
    simp [Port.ticked_eq, sending]
  rw [Port.sendEndDue_iff, Port.ticked_sending]
  exact ⟨fun ⟨f, rest, h, ended⟩ => ⟨f, rest, h, counts f rest h ▸ ended⟩,
    fun ⟨f, rest, h, ended⟩ => ⟨f, rest, h, (counts f rest h).symm ▸ ended⟩⟩

/-- A silence judgement of REF falls due in the luma sample period in which one of its two times is over (R2). -/
theorem Rtu.ticked_silenceDue_iff (r : Rtu) :
    r.ticked.silenceDue = true ↔
      (∃ n, r.quiet = some n ∧ silenceSpan ≤ n + 1) ∨ ∃ n, r.silence = some n ∧ longerField r.std ≤ n + 1 := by
  simp [Rtu.silenceDue_iff]

/-- Settles O2: the step is `State.idle`; what it counts is read off from `Part.tick`, and what comes to wait from
`Part.mem_dueEvents`. -/
theorem idleStepCountsTime : Obligations.IdleStepCountsTime := by
  rintro ⟨p, pending⟩ empty
  obtain rfl : pending = [] := empty
  intro r t now line longer starts sent begins
  have longer_eq : longerField r.std = longer := by
    simp only [longer]
    cases r.std <;> rfl
  have begins_iff (f : OutputField) (n : Nat) : (p.rtu.ticked.outputLineStart = some f ∧ f.line = n) ↔ begins f n :=
    Rtu.outputLineStart_line p.rtu.ticked f n
  have in_due (c : Instr) : c ∈ p.tick.dueEvents ↔
      (starts ∧ c = .fieldStart p.gtu.pins [])
      ∨ (¬ starts ∧ ((c = .statusBlockWrite ∧ now = (p.pku.inUse.status + 1) * line)
          ∨ (c = .replyRecordWrite ∧ now = (p.pku.inUse.status + 2) * line)
          ∨ (∃ d, c = .slotLine d ∧ now = ((p.port d).slotLine - 1) * line)
          ∨ (c = .activeSetTake ∧ now = (Config.firstActive t.sentStd r.fieldId + 1) * line)))
      ∨ (∃ i n, c = .storeSlip i n ∧ ∃ f, begins f n ∧ (p.siu i).storedFor f.count n = none)
      ∨ ((c = .silenceJudgement ∧ p.tick.rtu.silenceDue = true)
          ∨ (∃ i, c = .inputSilenceBad i ∧ (p.tick.siu i).silenceDue = true)
          ∨ ∃ i, c = .inputNoSignal i ∧ (p.tick.siu i).noSignalDue p.tick.rtu.std = true)
      ∨ ∃ d, c = .frameSendEnd d ∧ (p.tick.port d).sendEndDue = true := by
    have starts_iff : p.tick.rtu.fieldStartDue = true ↔ starts := Rtu.fieldStartDue_iff _
    rw [Part.mem_dueEvents, ← Bool.not_eq_true, starts_iff, Part.mem_lineEvents, Part.mem_tick_slipEvents,
      Part.mem_silenceEvents, Part.mem_sendEndEvents]
    simp only [begins_iff, p.tick_port, Port.ticked_slotLine]
    rfl
  refine ⟨p.tick, p.tick.dueEvents, step_nil p, rfl, ?_, ?_, ?_, ?_, ?_, ?_, ?_, ?_, ?_, ?_, ?_, ?_, ?_⟩
  · intro i u
    refine ⟨by rw [p.tick_siu]; rfl, fun f n starting => ?_, fun none_begins => ?_⟩
    · obtain ⟨line_starts, rfl⟩ := (begins_iff f n).2 starting
      rw [p.tick_siu, line_starts]
      rfl
    · have no_line : p.rtu.ticked.outputLineStart = none :=
        Option.eq_none_iff_forall_ne_some.2 fun f line_starts => none_begins f f.line ((begins_iff f _).1 ⟨line_starts, rfl⟩)
      rw [p.tick_siu, no_line]
      rfl
  · intro d
    rw [p.tick_port, Port.ticked_eq]
  · intro c due
    rw [in_due] at due
    grind
  · intro starting
    exact p.tick.head_dueEvents ((Rtu.fieldStartDue_iff _).2 starting)
  · intro pins order
    simp [in_due]
  · simp [in_due]
  · simp [in_due]
  · simp [in_due]
  · simp [in_due]
  · simp [in_due]
  · simp only [in_due, Part.tick_rtu, Rtu.ticked_silenceDue_iff, ← longer_eq]
    simp [silenceSpan, r]
  · intro i u
    simp only [in_due, Siu.noSignalDue_iff, ← longer_eq]
    simp [Siu.silenceDue, silenceSpan, u, r]
  · intro d
    simp only [in_due, p.tick_port, Port.ticked_sendEndDue_iff]
    simp [bitSixteenths]

end Sys2Proof.Machine
end

section
/-! ## The records of a field (O15)

The status block as the numbers of its items, the lines of the reply records, and the lines of PGM and PVW outside the
active ones. -/

namespace Sys2Proof.Machine

open Sys2Proof

/-! ### The status block (Tables 2-6 and 2-7) -/

/-- The thirteen items of a deck's entry, as numbers (Table 2-7). -/
def deckItems (c : Counting) (k : Deck) : List Int :=
  let l := positionLabel c k.position.position
  [k.role.code, k.line.code, transportCode k.transport, l.hh, l.mm, l.ss, l.ff,
   fieldBit l.field + 8 * switchCode c.drop, switchCode k.position.valid, k.chase.state.code, saturatedError k.chase,
   switchCode k.wantRecord, sentRecordCode k.sentRecord]

/-- The active slot's number, 255 with none (Table 2-6). -/
def Part.activeItem (p : Part) : Nat :=
  match p.eds.active with
  | some n => n.val
  | none => 255

/-- The items of Table 2-6 before the deck entries, as numbers, a number of three bytes as three items. -/
def Part.leadingItems (p : Part) : List Int :=
  [p.rtu.fieldCount / 65536, p.rtu.fieldCount / 256, p.rtu.fieldCount, standardCode p.rtu.std, p.rtu.lock.code,
   switchCode p.tcu.dfMode,
   p.pku.notices.toNat / 65536, p.pku.notices.toNat / 256, p.pku.notices.toNat,
   p.pku.mask.toNat / 65536, p.pku.mask.toNat / 256, p.pku.mask.toNat,
   p.pku.cause.code, p.pku.errors, p.eds.phase.code,
   p.activeItem, p.eds.cursor.val, switchCode p.eds.holdWaiting, p.tcu.marks.length]

/-- The items of Table 2-6 after the deck entries, as numbers. -/
def Part.trailingItems (p : Part) : List Int :=
  [p.mep.owner.code, p.mep.active.params.transition.code, p.mep.active.params.level / 256, p.mep.active.params.level,
   p.mep.active.params.bg1.code, p.mep.active.params.bg2.code, switchCode p.mep.active.params.keyOn,
   (p.siu .a).state.code, (p.siu .b).state.code, (p.siu .c).state.code,
   levelBits (fun g => (p.gtu.gpis.get g).accepted), levelBits p.tallyLit]

/-- The items of the whole status block, as numbers (Table 2-6). -/
def Part.statusItems (p : Part) : List Int :=
  p.leadingItems
  ++ (deckItems p.counting (p.deck 0) ++ deckItems p.counting (p.deck 1)
    ++ deckItems p.counting (p.deck 2) ++ deckItems p.counting (p.deck 3))
  ++ p.trailingItems

theorem flagByte_switchCode (b : Bool) : flagByte b = BitVec.ofInt 8 (switchCode b) := by cases b <;> rfl

/-- The entry of a deck holds its items, one a byte. -/
theorem deckEntry_eq (c : Counting) (k : Deck) : deckEntry c k = (deckItems c k).map (BitVec.ofInt 8) := by
  have drop_bit (b : Bool) (n : Nat) : ((n + 0 + if b then 8 else 0 : Nat) : Int) = n + 8 * switchCode b := by
    cases b <;> simp [switchCode]
  simp only [deckEntry, positionBytes, formedLabel, labelBytes, numBytes_one, flagByte_switchCode, byteOf_ofInt,
    Bool.false_eq_true, if_false, drop_bit]
  rfl

/-- The status block holds its items, one a byte. -/
theorem Part.statusBytes_eq (p : Part) : p.statusBytes = p.statusItems.map (BitVec.ofInt 8) := by
  simp only [Part.statusBytes, deckEntry_eq, numBytes_three, numBytes_two, flagByte_switchCode, byteOf_ofInt]
  simp only [Part.statusItems, List.map_append, List.append_assoc]
  rfl

/-- A byte of the status block is the item of its number. -/
theorem Part.statusBytes_item (p : Part) {k : Nat} {x y : Int} (item : p.statusItems[k]? = some y) (eq : y = x) :
    p.statusBytes[k]? = some (BitVec.ofInt 8 x) := by
  rw [p.statusBytes_eq, List.getElem?_map, item, eq]
  rfl

/-- A byte of a deck's entry in the status block is the item of its number. -/
theorem Part.statusBytes_deckItem (p : Part) (d : DeckNo) {m : Nat} {x y : Int} (small : m < 13)
    (item : (deckItems p.counting (p.deck d))[m]? = some y) (eq : y = x) :
    p.statusBytes[19 + 13 * d.val + m]? = some (BitVec.ofInt 8 x) := by
  refine p.statusBytes_item ?_ eq
  rw [← item]
  interval_cases m <;> fin_cases d <;> rfl

/-- The bit of a notice in Table 2-3 is its place in the order of that table. -/
theorem Notice.bit_of_order {order : List Notice} (all : ∀ n : Notice, order[n.bit]? = some n) (nodup : order.Nodup)
    {k : Nat} {n : Notice} (place : order[k]? = some n) : n.bit = k := by
  have in_range : n.bit < order.length := (List.getElem?_eq_some_iff.1 (all n)).1
  exact (List.getElem?_inj in_range nodup).1 ((all n).trans place.symm)

/-- The saturated error as a maximum of minima (R87). -/
theorem clampInt_eq {lo hi : Int} (h : lo ≤ hi) (v : Int) : clampInt lo hi v = max lo (min hi v) := by
  unfold clampInt
  split
  · omega
  · split <;> omega

/-! ### The lines of the reply records (R26, R38) -/

theorem replyLines_length (rs : List Reply) : (replyLines rs).length = 8 := by
  simp [replyLines]

/-- The k-th of the eight lines carries the k-th reply of the list, or no record. -/
theorem replyLines_line (rs : List Reply) {k : Nat} (small : k < 8) :
    (replyLines rs)[k]? = match rs[k]? with
      | some r => some (packetWords replyType r.bytes)
      | none => some [] := by
  rw [replyLines, List.getElem?_take_of_lt small]
  cases listed : rs[k]? with
  | some r =>
    obtain ⟨in_list, rfl⟩ := List.getElem?_eq_some_iff.1 listed
    simp [List.getElem?_append_left, in_list]
  | none =>
    have past : rs.length ≤ k := List.getElem?_eq_none_iff.1 listed
    rw [List.getElem?_append_right (by simpa using past), List.getElem?_replicate, if_pos (by simp; omega)]

/-! ### The lines outside the picture (R16, R26, R38, R162) -/

/-- What a line with these words carries as luma. -/
theorem recordSample_luma (words : List Word10) (x : Nat) :
    recordSample words .y x = match words[x]? with
      | some w => w.toNat
      | none => 64 := by
  unfold recordSample
  cases words[x]? <;> rfl

/-- Outside the active lines PVW is blanking throughout. -/
theorem Part.pvwLine_blank (p : Part) {f : OutputField} {n : Nat} (outside : f.isActive n = false) (c : Component)
    (x : Nat) : p.pvwLine f n c x = blackCode c := by
  simp [Part.pvwLine, outside]

/-- Outside the active lines PGM carries the words of the line's record, and blanking on an extension line. -/
theorem Part.pgmLine_outside (p : Part) {f : OutputField} {n : Nat} (outside : f.isActive n = false) (c : Component)
    (x : Nat) :
    p.pgmLine f n c x = if f.hasLine n then recordSample (p.pku.wordsOn n) c x else blackCode c := by
  simp [Part.pgmLine, outside]

/-- The chroma of a line outside the active ones is black. -/
theorem Part.pgmLine_outside_chroma (p : Part) {f : OutputField} {n : Nat} (outside : f.isActive n = false)
    {c : Component} (chroma : c ≠ .y) (x : Nat) : p.pgmLine f n c x = 512 := by
  rw [p.pgmLine_outside outside]
  cases c with
  | y => exact absurd rfl chroma
  | cb => exact ite_self _
  | cr => exact ite_self _

/-- On the active lines of a field that began outside LOCKED and FREEWHEEL both outputs carry BLACK (R16). -/
theorem Part.pgmLine_offAir (p : Part) {f : OutputField} {n : Nat} (active : f.isActive n = true)
    (dark : p.mep.active.onAir = false) (c : Component) (x : Nat) :
    p.pgmLine f n c x = blackCode c ∧ p.pvwLine f n c x = blackCode c := by
  simp [Part.pgmLine, Part.pvwLine, active, dark]

/-! ### The statement -/

/-- Settles O15: the bytes by their items, the lines by what each carries. -/
theorem recordsWritten : Obligations.RecordsWritten := by
  intro s p byte flag four siu source order
  have item {k : Nat} {x : Int} {y : Int} (h : p.statusItems[k]? = some y) (e : y = x) : byte k x :=
    p.statusBytes_item h e
  have flag_code (b : Bool) : (switchCode b : Int) = flag b := by cases b <;> rfl
  have four_levels (f : Fin 4 → Bool) : (levelBits f : Int) = four f := by
    simp only [four, ← flag_code, levelBits]
    push_cast
    rfl
  have siu_code (i : Input) : ((p.siu i).state.code : Int) = siu i := by
    simp only [siu]
    cases (p.siu i).state <;> rfl
  have source_code (x : Source) : (x.code : Int) = source x := by cases x <;> rfl
  refine ⟨by rw [p.statusBytes_eq]; rfl, item rfl rfl, item rfl rfl, item rfl rfl, item rfl ?_, item rfl ?_,
    item rfl (flag_code _), item rfl rfl, item rfl rfl, item rfl rfl, ?_, item rfl rfl, item rfl rfl, item rfl rfl,
    item rfl ?_, item rfl rfl, item rfl ?_, item rfl ?_, item rfl rfl, item rfl (flag_code _), item rfl rfl, ?_,
    item rfl ?_, item rfl ?_, item rfl rfl, item rfl rfl, item rfl (source_code _), item rfl (source_code _),
    item rfl (flag_code _), item rfl (siu_code _), item rfl (siu_code _), item rfl (siu_code _),
    item rfl (four_levels _), item rfl (four_levels _), ?_, ?_, ?_⟩
  · cases p.rtu.std <;> rfl
  · cases p.rtu.lock <;> rfl
  · intro k n place
    have bit : n.bit = k := Notice.bit_of_order (fun m => by cases m <;> rfl) (by decide) place
    rw [Part.noticeSet, bit]
  · cases p.pku.cause <;> rfl
  · cases p.eds.phase <;> rfl
  · rw [Part.activeItem]
    cases p.eds.active <;> rfl
  · intro d k at_ l
    have at_item {m : Nat} {x y : Int} (small : m < 13) (h : (deckItems p.counting (p.deck d))[m]? = some y) (e : y = x) :
        at_ m x := p.statusBytes_deckItem d small h e
    refine ⟨at_item (by decide) rfl ?_, at_item (by decide) rfl ?_, at_item (by decide) rfl ?_, at_item (by decide) rfl rfl,
      at_item (by decide) rfl rfl, at_item (by decide) rfl rfl, at_item (by decide) rfl rfl, at_item (by decide) rfl ?_,
      at_item (by decide) rfl (flag_code _), at_item (by decide) rfl ?_, at_item (by decide) rfl ?_,
      at_item (by decide) rfl (flag_code _), at_item (by decide) rfl ?_⟩
    · change ((k.role.code : Nat) : Int) = _
      cases k.role <;> rfl
    · change ((k.line.code : Nat) : Int) = _
      cases k.line <;> rfl
    · change ((transportCode k.transport : Nat) : Int) = _
      cases k.transport <;> rfl
    · rw [← flag_code]
      change (fieldBit l.field : Int) + _ = _
      cases l.field <;> rfl
    · change ((k.chase.state.code : Nat) : Int) = _
      cases k.chase.state <;> rfl
    · rw [saturatedError, clampInt_eq (by decide)]
    · change ((sentRecordCode k.sentRecord : Nat) : Int) = _
      cases k.sentRecord with
      | none => rfl
      | some b => exact flag_code b
  · cases p.mep.owner <;> rfl
  · cases p.mep.active.params.transition <;> rfl
  · exact ⟨p.statusBeside, rfl, rfl, fun d => ⟨Table.get_map _ _ d, Table.get_map _ _ d⟩⟩
  · exact ⟨replyLines p.pku.toWrite, rfl, replyLines_length _, fun k small => replyLines_line _ small⟩
  · intro f n x carried S
    refine ⟨fun outside => ?_, fun active dark => ?_⟩
    · have luma (line : f.hasLine n = true) : p.pgmLine f n .y x = carried (p.pku.wordsOn n) :=
        (p.pgmLine_outside outside .y x).trans ((if_pos line).trans (recordSample_luma _ x))
      refine ⟨p.pgmLine_outside_chroma outside (by decide) x, p.pgmLine_outside_chroma outside (by decide) x,
        p.pvwLine_blank outside _ x, p.pvwLine_blank outside _ x, p.pvwLine_blank outside _ x, ?_, ?_, ?_, ?_⟩
      · intro extension
        rw [p.pgmLine_outside outside, extension]
        rfl
      · intro line before
        rw [luma line, Pku.wordsOn, if_neg before.ne, if_neg (Nat.lt_asymm before)]
        rfl
      · intro line at_S
        rw [luma line, Pku.wordsOn, if_pos at_S]
      · intro line after
        rw [luma line, Pku.wordsOn, if_neg after.ne', if_pos after, List.getD_eq_getElem?_getD]
    · exact ⟨(p.pgmLine_offAir active dark _ x).1, (p.pgmLine_offAir active dark _ x).1, (p.pgmLine_offAir active dark _ x).1,
        (p.pgmLine_offAir active dark _ x).2, (p.pgmLine_offAir active dark _ x).2, (p.pgmLine_offAir active dark _ x).2⟩

end Sys2Proof.Machine
end

section
/-! ## Laws: how an event ends

What the end of an event leaves alone, what it writes into the active slot, and which notices it sets. -/

namespace Sys2Proof

/-- The entries of a table that a map makes of another one. -/
theorem Table.get_eq_of_map_eq {α β : Type} {n : Nat} {f : α → β} {t u : Table α n} (h : t.map f = u.map f) (i : Fin n) :
    f (t.get i) = f (u.get i) := by
  rw [← Table.get_map f t i, h, Table.get_map]

theorem Table.map_modify {α β : Type} {n : Nat} (g : α → β) (t : Table α n) (i : Fin n) (f : α → α)
    (h : ∀ a, g (f a) = g a) : (t.modify i f).map g = t.map g := by
  apply Table.ext_get
  intro j
  by_cases same : j = i
  · subst same
    simp [h]
  · simp [Table.get_modify_ne t f same]

end Sys2Proof

namespace Sys2Proof.Machine

open Sys2Proof

/-! ### Notices -/

/-- Which notices stand after one is raised. -/
theorem Part.raise_noticeSet_eq (p : Part) (n m : Notice) : (p.raise n).noticeSet m = (m == n || p.noticeSet m) := by
  by_cases same : m = n
  · subst same
    simp [p.raise_noticeSet]
  · simp [p.raise_noticeSet_ne same, same]

/-- The notices are those of the packet unit. -/
theorem Part.noticeSet_congr {p q : Part} (h : q.pku = p.pku) (n : Notice) : q.noticeSet n = p.noticeSet n := by
  rw [Part.noticeSet, h, Part.noticeSet]

/-! ### What demands, chase stops and releases leave alone -/

/-- A deck record without what an end of an event writes into it: the demands and the chase items. -/
def Deck.undemanded (k : Deck) : Deck :=
  { k with want := .still, wantRecord := false, wantSpeed := 256
           chase := { state := .off, error := 0, lockCount := 0, speed := 256 } }

theorem Deck.sent_of_undemanded {j k : Deck} (h : j.undemanded = k.undemanded) : j.sent = k.sent :=
  (congrArg Deck.sent h : j.undemanded.sent = k.undemanded.sent)

theorem Deck.direct_of_undemanded {j k : Deck} (h : j.undemanded = k.undemanded) : j.direct = k.direct :=
  (congrArg Deck.direct h : j.undemanded.direct = k.undemanded.direct)

theorem Deck.position_of_undemanded {j k : Deck} (h : j.undemanded = k.undemanded) : j.position = k.position :=
  (congrArg Deck.position h : j.undemanded.position = k.undemanded.position)

/-- The timecode unit and the deck records without their demands and chase items. -/
def Part.tapes (p : Part) : Tcu × Table Deck 4 := (p.tcu, p.decks.map Deck.undemanded)

/-- The packet unit and the engine. -/
def Part.desk (p : Part) : Pku × Eds := (p.pku, p.eds)

/-- What keeps the tapes keeps each deck record but for its demands and chase items. -/
theorem Part.undemanded_of_tapes {p q : Part} (h : q.tapes = p.tapes) (d : DeckNo) :
    (q.deck d).undemanded = (p.deck d).undemanded :=
  Table.get_eq_of_map_eq (congrArg Prod.snd h) d

theorem Part.tcu_of_tapes {p q : Part} (h : q.tapes = p.tapes) : q.tcu = p.tcu := congrArg Prod.fst h

theorem Part.pku_of_desk {p q : Part} (h : q.desk = p.desk) : q.pku = p.pku := congrArg Prod.fst h

theorem Part.eds_of_desk {p q : Part} (h : q.desk = p.desk) : q.eds = p.eds := congrArg Prod.snd h

theorem Part.modDeck_tapes (p : Part) (d : DeckNo) (f : Deck → Deck) (h : ∀ k, (f k).undemanded = k.undemanded) :
    (p.modDeck d f).tapes = p.tapes :=
  Prod.ext rfl (Table.map_modify _ _ d f h)

@[simp] theorem Part.modPort_tapes (p : Part) (d : DeckNo) (f : Port → Port) : (p.modPort d f).tapes = p.tapes := rfl
@[simp] theorem Part.modChase_tapes (p : Part) (d : DeckNo) (f : ChaseOwn → ChaseOwn) : (p.modChase d f).tapes = p.tapes := rfl
@[simp] theorem Part.modEds_tapes (p : Part) (f : Eds → Eds) : (p.modEds f).tapes = p.tapes := rfl
@[simp] theorem Part.modSlot_tapes (p : Part) (n : SlotNo) (f : Slot → Slot) : (p.modSlot n f).tapes = p.tapes := rfl
@[simp] theorem Part.modMep_tapes (p : Part) (f : Mep → Mep) : (p.modMep f).tapes = p.tapes := rfl
@[simp] theorem Part.modPku_tapes (p : Part) (f : Pku → Pku) : (p.modPku f).tapes = p.tapes := rfl
@[simp] theorem Part.modRtu_tapes (p : Part) (f : Rtu → Rtu) : (p.modRtu f).tapes = p.tapes := rfl
@[simp] theorem Part.raise_tapes (p : Part) (n : Notice) : (p.raise n).tapes = p.tapes := rfl
@[simp] theorem Part.setSyncWatch_tapes (p : Part) (b : Bool) : (p.setSyncWatch b).tapes = p.tapes := rfl

@[simp] theorem Part.modDeck_desk (p : Part) (d : DeckNo) (f : Deck → Deck) : (p.modDeck d f).desk = p.desk := rfl
@[simp] theorem Part.modPort_desk (p : Part) (d : DeckNo) (f : Port → Port) : (p.modPort d f).desk = p.desk := rfl
@[simp] theorem Part.modChase_desk (p : Part) (d : DeckNo) (f : ChaseOwn → ChaseOwn) : (p.modChase d f).desk = p.desk := rfl
@[simp] theorem Part.modMep_desk (p : Part) (f : Mep → Mep) : (p.modMep f).desk = p.desk := rfl
@[simp] theorem Part.modTcu_desk (p : Part) (f : Tcu → Tcu) : (p.modTcu f).desk = p.desk := rfl
@[simp] theorem Part.setSyncWatch_desk (p : Part) (b : Bool) : (p.setSyncWatch b).desk = p.desk := rfl

@[simp] theorem Part.wantTransport_tapes (p : Part) (d : DeckNo) (w : Want) : (p.wantTransport d w).tapes = p.tapes :=
  p.modDeck_tapes d _ fun _ => rfl

@[simp] theorem Part.wantTransport_desk (p : Part) (d : DeckNo) (w : Want) : (p.wantTransport d w).desk = p.desk := rfl

@[simp] theorem Part.wantRecordOff_tapes (p : Part) (d : DeckNo) : (p.wantRecordOff d).tapes = p.tapes :=
  p.modDeck_tapes d _ fun _ => rfl

@[simp] theorem Part.wantRecordOff_desk (p : Part) (d : DeckNo) : (p.wantRecordOff d).desk = p.desk := rfl

@[simp] theorem Part.wantSpeed_tapes (p : Part) (d : DeckNo) (v : Int) : (p.wantSpeed d v).tapes = p.tapes :=
  p.modDeck_tapes d _ fun _ => rfl

@[simp] theorem Part.chaseStop_tapes (p : Part) (d : DeckNo) : (p.chaseStop d).tapes = p.tapes := by
  simp only [Part.chaseStop, Part.setSyncWatch_tapes, Part.wantSpeed_tapes, Part.modChase_tapes]
  exact p.modDeck_tapes d _ fun _ => rfl

@[simp] theorem Part.chaseStop_desk (p : Part) (d : DeckNo) : (p.chaseStop d).desk = p.desk := rfl

@[simp] theorem Part.stillAll_tapes (p : Part) : p.stillAll.tapes = p.tapes :=
  Part.each_keeps Part.tapes _ (fun d q => q.wantTransport_tapes d _) _ _

@[simp] theorem Part.stillAll_desk (p : Part) : p.stillAll.desk = p.desk :=
  Part.each_keeps Part.desk _ (fun d q => q.wantTransport_desk d _) _ _

@[simp] theorem Part.chaseStopAll_tapes (p : Part) : p.chaseStopAll.tapes = p.tapes :=
  Part.each_keeps Part.tapes _ (fun d q => by split <;> simp) _ _

@[simp] theorem Part.chaseStopAll_desk (p : Part) : p.chaseStopAll.desk = p.desk :=
  Part.each_keeps Part.desk _ (fun d q => by split <;> simp) _ _

@[simp] theorem Part.recordOff_tapes (p : Part) : p.recordOff.tapes = p.tapes := by
  unfold Part.recordOff
  split <;> simp

@[simp] theorem Part.recordOff_desk (p : Part) : p.recordOff.desk = p.desk := by
  unfold Part.recordOff
  split <;> simp

@[simp] theorem Part.closeSlot_tapes (p : Part) (st : SlotState) (r : Reason) : (p.closeSlot st r).tapes = p.tapes := by
  unfold Part.closeSlot
  split <;> simp

@[simp] theorem Part.closeEvent_tapes (p : Part) (st : SlotState) (r : Reason) : (p.closeEvent st r).tapes = p.tapes := by
  simp [Part.closeEvent]

@[simp] theorem Part.disarmAll_tapes (p : Part) : p.disarmAll.tapes = p.tapes := rfl

@[simp] theorem Part.endList_tapes (p : Part) : p.endList.tapes = p.tapes := rfl

@[simp] theorem Part.failEvent_tapes (p : Part) (r : Reason) : (p.failEvent r).tapes = p.tapes := by
  unfold Part.failEvent
  split <;> simp

@[simp] theorem Part.tripGuard_tapes (p : Part) : p.tripGuard.tapes = p.tapes := by
  simp [Part.tripGuard]

@[simp] theorem Part.judgeGuard_tapes (p : Part) : p.judgeGuard.tapes = p.tapes := by
  unfold Part.judgeGuard
  split <;> simp

@[simp] theorem Part.lockLeft_tapes (p : Part) : p.lockLeft.tapes = p.tapes := by
  unfold Part.lockLeft
  split <;> simp

/-! ### The active slot and the engine -/

/-- The slot as an event that ends in this state for this reason leaves it. -/
def Slot.closed (s : Slot) (st : SlotState) (r : Reason) : Slot := { s with state := st, run := { s.run with reason := r } }

theorem Part.closeSlot_none (p : Part) (st : SlotState) (r : Reason) (h : p.eds.active = none) : p.closeSlot st r = p := by
  simp [Part.closeSlot, h]

theorem Part.closeSlot_some (p : Part) (st : SlotState) (r : Reason) {n : SlotNo} (h : p.eds.active = some n) :
    p.closeSlot st r = p.modSlot n (·.closed st r) := by
  simp only [Part.closeSlot, h]
  rfl

@[simp] theorem Part.closeSlot_pku (p : Part) (st : SlotState) (r : Reason) : (p.closeSlot st r).pku = p.pku := by
  unfold Part.closeSlot
  split <;> rfl

/-- What writes only into the active slot looks only at the engine. -/
theorem Part.closeSlot_eds_congr {p q : Part} (h : q.eds = p.eds) (st : SlotState) (r : Reason) :
    (q.closeSlot st r).eds = (p.closeSlot st r).eds := by
  cases active : p.eds.active with
  | none => rw [p.closeSlot_none st r active, q.closeSlot_none st r (h ▸ active), h]
  | some n => rw [p.closeSlot_some st r active, q.closeSlot_some st r (h ▸ active), Part.modSlot_eds, Part.modSlot_eds, h]

/-- The work that comes before the slot's final state touches neither the packet unit nor the engine. -/
theorem Part.beforeClose_desk (p : Part) :
    (((p.recordOff.stillAll.setSyncWatch false).chaseStopAll).modMep Mep.release).desk = p.desk := by simp

@[simp] theorem Part.closeEvent_pku (p : Part) (st : SlotState) (r : Reason) : (p.closeEvent st r).pku = p.pku := by
  rw [Part.closeEvent, Part.closeSlot_pku]
  exact Part.pku_of_desk p.beforeClose_desk

/-- At the engine the end of an event writes the active slot's final state and reason. -/
theorem Part.closeEvent_eds (p : Part) (st : SlotState) (r : Reason) :
    (p.closeEvent st r).eds = (p.closeSlot st r).eds := by
  rw [Part.closeEvent]
  exact Part.closeSlot_eds_congr (Part.eds_of_desk p.beforeClose_desk) st r

/-! ### The failure of an event (R147) -/

@[simp] theorem Part.disarmAll_pku (p : Part) : p.disarmAll.pku = p.pku := rfl
@[simp] theorem Part.disarmAll_eds (p : Part) :
    p.disarmAll.eds = { p.eds with slots := p.eds.slots.map Slot.disarmed } := rfl
@[simp] theorem Part.endList_pku (p : Part) : p.endList.pku = (p.raise .listEnd).pku := rfl

/-- The engine after an entry into IDLE (R132). -/
def Eds.idled (e : Eds) (keepLatch : Bool) : Eds :=
  { e with phase := .idle, active := none, stopRequest := false, holdWaiting := false, latch := e.latch && keepLatch
           guardRunning := false, guardCount := 0, cues := .replicate 4 none }

@[simp] theorem Part.enterIdle_eds (p : Part) (keepLatch : Bool) : (p.enterIdle keepLatch).eds = p.eds.idled keepLatch := rfl
@[simp] theorem Part.endList_eds (p : Part) : p.endList.eds = p.eds.idled false := rfl

/-- The engine after a failure: with a slot ACTIVE, that slot FAILED, every ARMED slot disarmed, IDLE. -/
def Eds.failed (e : Eds) (r : Reason) : Eds :=
  match e.active with
  | none => e
  | some n => { e with slots := (e.slots.modify n (·.closed .failed r)).map Slot.disarmed }.idled false

/-- With no slot ACTIVE a failure does nothing. -/
theorem Part.failEvent_none (p : Part) (r : Reason) (h : p.eds.active = none) : p.failEvent r = p := by
  simp [Part.failEvent, Part.eventActive, h]

theorem Part.failEvent_some (p : Part) (r : Reason) {n : SlotNo} (h : p.eds.active = some n) :
    p.failEvent r = ((p.closeEvent .failed r).raise .eventFailed).disarmAll.endList := by
  simp [Part.failEvent, Part.eventActive, h]

/-- A failure looks at nothing but the engine to change the engine. -/
theorem Part.failEvent_eds (p : Part) (r : Reason) : (p.failEvent r).eds = p.eds.failed r := by
  unfold Eds.failed
  split
  · rw [p.failEvent_none r ‹_›]
  · rw [p.failEvent_some r ‹_›, Part.endList_eds, Part.disarmAll_eds, Part.raise_eds, Part.closeEvent_eds,
      p.closeSlot_some _ _ ‹_›]
    rfl

/-- No slot is ACTIVE after a failure. -/
@[simp] theorem Part.failEvent_active (p : Part) (r : Reason) : (p.failEvent r).eds.active = none := by
  rw [Part.failEvent_eds, Eds.failed]
  split
  · assumption
  · rfl

/-- A failure sets EVENT_FAILED and, as the list ends, LIST_END; every other notice keeps its state. -/
theorem Part.failEvent_noticeSet (p : Part) (r : Reason) (m : Notice) :
    (p.failEvent r).noticeSet m = (p.noticeSet m || (p.eds.active.isSome && (m == .eventFailed || m == .listEnd))) := by
  cases active : p.eds.active with
  | none => simp [p.failEvent_none r active]
  | some n =>
    have pku_eq : (p.failEvent r).pku = ((p.raise .eventFailed).raise .listEnd).pku := by
      simp [p.failEvent_some r active]
    rw [Part.noticeSet_congr pku_eq, Part.raise_noticeSet_eq, Part.raise_noticeSet_eq]
    cases p.noticeSet m <;> simp [Bool.or_comm]

/-- A notice that stands before a failure stands after it. -/
theorem Part.failEvent_noticeSet_of (p : Part) (r : Reason) {m : Notice} (h : p.noticeSet m = true) :
    (p.failEvent r).noticeSet m = true := by
  simp [Part.failEvent_noticeSet, h]

/-- The slot of the event that fails takes its final state and reason, and nothing else in it changes. -/
theorem Part.failEvent_slot (p : Part) (r : Reason) {n : SlotNo} (h : p.eds.active = some n) :
    (p.failEvent r).slot n = (p.slot n).closed .failed r := by
  rw [Part.slot, p.failEvent_eds, Eds.failed, h]
  simp only [Eds.idled, Table.get_map, Table.get_modify_self]
  rfl

/-- What the failure of the active event of `p` for a reason leaves in `q`: its slot FAILED with that reason, the engine
in IDLE, and EVENT_FAILED set. -/
def Part.FailedAs (p q : Part) (r : Reason) : Prop :=
  ∀ n, p.eds.active = some n →
    q.slot n = (p.slot n).closed .failed r ∧ q.eds.phase = .idle ∧ q.eds.active = none ∧ q.noticeSet .eventFailed = true

/-- A failure leaves what R147 says. -/
theorem Part.failEvent_failedAs (p : Part) (r : Reason) : p.FailedAs (p.failEvent r) r := by
  intro n active
  refine ⟨p.failEvent_slot r active, ?_, p.failEvent_active r, ?_⟩
  · exact (p.failEvent_idle r (by simp [Part.eventActive, active])).1
  · simp [p.failEvent_noticeSet, active]

/-! ### The guard and the leaving of LOCKED (R146, R149) -/

/-- A trip of the guard fails the event with REF_LOST. -/
theorem Part.tripGuard_failedAs (p : Part) : p.FailedAs p.tripGuard .refLost := (p.raise .guardTrip).failEvent_failedAs .refLost

theorem Part.tripGuard_noticeSet (p : Part) (m : Notice) :
    p.tripGuard.noticeSet m =
      (m == .guardTrip || p.noticeSet m || (p.eds.active.isSome && (m == .eventFailed || m == .listEnd))) := by
  rw [Part.tripGuard, Part.failEvent_noticeSet, Part.raise_noticeSet_eq, Part.raise_eds]

/-- The guard as the leaving of LOCKED starts it (R149). -/
def Part.startGuard (p : Part) : Part := p.modEds (fun e => { e with guardRunning := true, guardCount := 0 })

/-- In ROLL the leaving of LOCKED fails the event with REF_LOST (R146). -/
theorem Part.lockLeft_roll (p : Part) (h : p.eds.phase = .roll) : p.lockLeft = p.failEvent .refLost := by
  simp [Part.lockLeft, h]

/-- In RECORD it starts the guard (R149). -/
theorem Part.lockLeft_record (p : Part) (h : p.eds.phase = .record) (limit : p.eds.guardLimit ≠ 0) :
    p.lockLeft = p.startGuard := by
  simp [Part.lockLeft, h, Part.judgeGuard, Part.guardDue, limit, Part.startGuard]

/-- A guard of limit 0 trips as it is started (R149). -/
theorem Part.lockLeft_record_zero (p : Part) (h : p.eds.phase = .record) (limit : p.eds.guardLimit = 0) :
    p.lockLeft = p.startGuard.tripGuard := by
  simp [Part.lockLeft, h, Part.judgeGuard, Part.guardDue, limit, Part.startGuard]

/-- In every other phase it does nothing. -/
theorem Part.lockLeft_other (p : Part) (roll : p.eds.phase ≠ .roll) (record : p.eds.phase ≠ .record) : p.lockLeft = p := by
  unfold Part.lockLeft
  split
  · exact absurd ‹_› roll
  · exact absurd ‹_› record
  · rfl

/-- What leaving LOCKED can do. -/
theorem Part.lockLeft_cases (p : Part) :
    (p.eds.phase = .roll ∧ p.lockLeft = p.failEvent .refLost)
    ∨ (p.eds.phase = .record ∧ p.eds.guardLimit = 0 ∧ p.lockLeft = p.startGuard.tripGuard)
    ∨ (p.eds.phase = .record ∧ p.eds.guardLimit ≠ 0 ∧ p.lockLeft = p.startGuard)
    ∨ (p.eds.phase ≠ .roll ∧ p.eds.phase ≠ .record ∧ p.lockLeft = p) := by
  by_cases roll : p.eds.phase = .roll
  · exact .inl ⟨roll, p.lockLeft_roll roll⟩
  by_cases record : p.eds.phase = .record
  · by_cases limit : p.eds.guardLimit = 0
    · exact .inr (.inl ⟨record, limit, p.lockLeft_record_zero record limit⟩)
    · exact .inr (.inr (.inl ⟨record, limit, p.lockLeft_record record limit⟩))
  · exact .inr (.inr (.inr ⟨roll, record, p.lockLeft_other roll record⟩))

/-- A notice that stands stays when LOCKED is left. -/
theorem Part.lockLeft_noticeSet_of (p : Part) {m : Notice} (h : p.noticeSet m = true) : p.lockLeft.noticeSet m = true := by
  rcases p.lockLeft_cases with ⟨-, eq⟩ | ⟨-, -, eq⟩ | ⟨-, -, eq⟩ | ⟨-, -, eq⟩ <;> rw [eq]
  · exact p.failEvent_noticeSet_of _ h
  · rw [Part.tripGuard_noticeSet]
    simp [show p.startGuard.noticeSet m = true from h]
  · exact h
  · exact h

/-! ### A change of standard (R69, R88, R150) -/

theorem Part.edsStandardChange_tapes (p : Part) : p.edsStandardChange.tapes = p.tapes := p.failEvent_tapes _

/-- After a standard-change event no slot is ACTIVE. -/
@[simp] theorem Part.standardChangeEvent_active (p : Part) : p.standardChangeEvent.eds.active = none :=
  Part.failEvent_active (p.countingChanged.modTcu _) _

/-- The notices of a standard-change event are those of the failure that it makes. -/
theorem Part.standardChangeEvent_noticeSet (p : Part) (m : Notice) :
    p.standardChangeEvent.noticeSet m
      = (p.noticeSet m || (p.eds.active.isSome && (m == .eventFailed || m == .listEnd))) :=
  Part.failEvent_noticeSet (p.countingChanged.modTcu _) .standardChange m

/-- The marks are lost and the counting is not settled (R69). -/
theorem Part.standardChangeEvent_tcu (p : Part) :
    p.standardChangeEvent.tcu.marks = [] ∧ p.standardChangeEvent.tcu.settled = false := by
  rw [Part.standardChangeEvent, Part.tcu_of_tapes (Part.edsStandardChange_tapes _)]
  exact ⟨rfl, rfl⟩

/-- The position is lost (R69), a last-sent CUE_TO becomes UNKNOWN and a pending direct CUE_TO is dropped (R88). -/
theorem Part.standardChangeEvent_deck (p : Part) (d : DeckNo) :
    (p.standardChangeEvent.deck d).position.valid = false
    ∧ (p.standardChangeEvent.deck d).sent = (match (p.deck d).sent with | .cueTo _ => .unknown | x => x)
    ∧ (p.standardChangeEvent.deck d).direct = (p.deck d).direct.filter (fun x => x.command != .cueTo) := by
  have deck_eq : (p.standardChangeEvent.deck d).undemanded = (p.deck d).countingChanged.undemanded := by
    rw [Part.standardChangeEvent, Part.undemanded_of_tapes (Part.edsStandardChange_tapes _)]
    exact congrArg _ (Table.get_map _ _ d)
  refine ⟨congrArg PosRec.valid (Deck.position_of_undemanded deck_eq), Deck.sent_of_undemanded deck_eq,
    (Deck.direct_of_undemanded deck_eq).trans ?_⟩
  rw [Deck.countingChanged]
  cases (p.deck d).direct with
  | none => rfl
  | some x => by_cases cue : x.command = .cueTo <;> simp [Option.filter, cue]

/-- Every slot after a standard-change event: disarmed, and without counts (R130, R150). -/
theorem Part.standardChangeEvent_slot (p : Part) (n : SlotNo) :
    p.standardChangeEvent.slot n = ((p.failEvent .standardChange).slot n).disarmed.withoutCounts := by
  have eds_eq : ((p.countingChanged.modTcu (fun t => { t with settled := false })).failEvent .standardChange).eds
      = (p.failEvent .standardChange).eds := by
    rw [Part.failEvent_eds, Part.failEvent_eds]
    rfl
  rw [Part.standardChangeEvent, Part.edsStandardChange, Part.slot, Part.dropCounts, Part.modEds_eds, Part.disarmAll_eds, eds_eq]
  simp only [Table.get_map]
  rfl

/-- No slot keeps arm results or stays ARMED across a standard-change event (R130, R150). -/
theorem Part.standardChangeEvent_unarmed (p : Part) (n : SlotNo) :
    (p.standardChangeEvent.slot n).arm = none ∧ (p.standardChangeEvent.slot n).state ≠ .armed := by
  rw [p.standardChangeEvent_slot]
  exact ⟨rfl, Slot.disarmed_state _⟩

/-- A slot whose event failed loses its counts at the standard-change event and keeps its reason (R150). -/
theorem Slot.closed_withoutCounts (s : Slot) (r : Reason) :
    (s.closed .failed r).disarmed.withoutCounts
      = { s with state := .failed, arm := none, run := { s.run with reason := r, recordOn := none, recordOff := none } } := rfl

end Sys2Proof.Machine
end

section
/-! ## Judgements of REF (O8, O9, O10)

What the RTU does at a miss and at the loss of REF, and what a detected standard change hands on. -/

namespace Sys2Proof.Machine

open Sys2Proof

/-! ### A miss in LOCKED (R10, R11) -/

/-- The first miss is counted and nothing else happens. -/
theorem Part.countMiss_first (p : Part) (h : p.rtu.miss = 0) :
    p.countMiss = p.modRtu (fun r => { r with miss := 1 }) := by
  simp [Part.countMiss, Part.modRtu, h]

/-- The second one loses REF. -/
theorem Part.countMiss_second (p : Part) (h : p.rtu.miss = 1) : p.countMiss = p.enterFreewheel := by
  simp [Part.countMiss, h]

/-- What the loss of REF in LOCKED leaves in `q`: FREEWHEEL with REF_LOST, inputs and console as they were, and the
engine as its phase asks (R11, R146, R149). -/
def Part.LostRef (p q : Part) : Prop :=
  q.noticeSet .refLost = true
  ∧ q.rtu = { p.rtu with lock := .freewheel, run := 0, miss := 0 } ∧ q.sius = p.sius ∧ q.gtu = p.gtu
  ∧ (p.eds.phase = .roll → p.FailedAs q .refLost)
  ∧ (p.eds.phase = .record → p.eds.guardLimit ≠ 0 → q.eds = { p.eds with guardRunning := true, guardCount := 0 })
  ∧ (p.eds.phase = .record → p.eds.guardLimit = 0 →
      p.FailedAs q .refLost ∧ (p.eds.active ≠ none → q.noticeSet .guardTrip = true))
  ∧ (p.eds.phase ≠ .roll → p.eds.phase ≠ .record → q.eds = p.eds)

/-- The entry to FREEWHEEL, by the phase of the engine. -/
theorem Part.enterFreewheel_lostRef (p : Part) : p.LostRef p.enterFreewheel := by
  let q := (p.modRtu (fun r => { r with lock := .freewheel, run := 0, miss := 0 })).raise .refLost
  have lost : q.noticeSet .refLost = true := Part.raise_noticeSet _ _
  have rtu_eq : q.lockLeft.rtu = q.rtu := Part.rtu_of_aside q.lockLeft_aside
  have sius_eq : q.lockLeft.sius = q.sius := Part.sius_of_aside q.lockLeft_aside
  have gtu_eq : q.lockLeft.gtu = q.gtu := Part.gtu_of_aside q.lockLeft_aside
  refine ⟨q.lockLeft_noticeSet_of lost, rtu_eq, sius_eq, gtu_eq, ?_, ?_, ?_, ?_⟩
  · intro roll
    rw [Part.enterFreewheel, q.lockLeft_roll roll]
    exact q.failEvent_failedAs .refLost
  · intro record limit
    rw [Part.enterFreewheel, q.lockLeft_record record limit]
    rfl
  · intro record limit
    rw [Part.enterFreewheel, q.lockLeft_record_zero record limit]
    exact ⟨q.startGuard.tripGuard_failedAs, fun _ => by simp [Part.tripGuard_noticeSet]⟩
  · intro roll record
    rw [Part.enterFreewheel, q.lockLeft_other roll record]
    rfl

/-! ### A bad judgement (R6, R7, R10, R12) -/

theorem Part.judgeBad_noRef (p : Part) (h : p.rtu.lock = .noRef) : p.judgeBad = p := by
  simp [Part.judgeBad, h]

theorem Part.judgeBad_acquire_first (p : Part) (h : p.rtu.lock = .acquire) (miss : p.rtu.miss = 0) :
    p.judgeBad = p.modRtu (fun r => { r with run := 0, miss := 1 }) := by
  simp [Part.judgeBad, Part.modRtu, h, miss]

theorem Part.judgeBad_acquire_second (p : Part) (h : p.rtu.lock = .acquire) (miss : p.rtu.miss = 1) :
    p.judgeBad = p.modRtu (fun r => { r with lock := .noRef, run := 0, miss := 0, candidate := none }) := by
  simp [Part.judgeBad, h, miss]

theorem Part.judgeBad_locked (p : Part) (h : p.rtu.lock = .locked) : p.judgeBad = p.countMiss := by
  simp [Part.judgeBad, h]

theorem Part.judgeBad_freewheel (p : Part) (h : p.rtu.lock = .freewheel) :
    p.judgeBad = p.modRtu (fun r => { r with run := 0 }) := by
  simp [Part.judgeBad, h]

/-- Settles O9: each way to a bad judgement is `Part.judgeBad` of the part with the RTU given, which goes by the lock
state; the second miss in LOCKED is the loss of REF. -/
theorem referenceJudgedBad : Obligations.ReferenceJudgedBad := by
  intro s cause obs time c r x e
  refine ⟨fun none_open => ?_, fun judged => ?_⟩
  · simp only [exec, execRefFieldBad, show s.part.rtu.refField = none from none_open]
    rfl
  intro leaves lost
  let p : Part := s.part.modRtu fun _ => r
  have judges : exec c s = ran s p.judgeBad := by
    rcases judged with ⟨rfl, opened, rfl⟩ | ⟨rfl, rfl⟩ | ⟨rfl, opened, malformed, rfl⟩
    · have in_progress : s.part.rtu.refField.isSome = true := Option.isSome_iff_ne_none.2 opened
      simp only [exec, execRefFieldBad, in_progress]
      rfl
    · rfl
    · obtain ⟨f, field⟩ := Option.ne_none_iff_exists'.1 opened
      have closes : (s.part.arrivingAt time).rtu.refField = some f := field
      simp only [exec, execRefFieldWellFormed, Part.refClosed, closes, malformed f field]
      rfl
  simp only [leaves, judges]
  refine ⟨fun lock => ?_, fun lock miss => ?_, fun lock miss => ?_, fun lock => ?_, fun lock miss => ?_, fun lock miss => ?_⟩
  · rw [p.judgeBad_noRef lock]; rfl
  · rw [p.judgeBad_acquire_first lock miss]; rfl
  · rw [p.judgeBad_acquire_second lock miss]; rfl
  · rw [p.judgeBad_freewheel lock]; rfl
  · rw [p.judgeBad_locked lock, p.countMiss_first miss]; rfl
  · rw [p.judgeBad_locked lock, p.countMiss_second miss]
    exact ⟨p.enterFreewheel, rfl, p.enterFreewheel_lostRef⟩

/-! ### A detected change of standard (R13, R69, R88, R150) -/

/-- What a detected change of standard leaves in `q` but for the notices: ACQUIRE with the candidate, positions and marks
lost, no slot ACTIVE or ARMED. -/
structure Part.DetectedStandard (p q : Part) (std : Standard) : Prop where
  rtu : q.rtu = { p.rtu with lock := .acquire, candidate := some std, run := 1, miss := 0 }
  notice : q.noticeSet .standardChange = true
  marks : q.tcu.marks = []
  settled : q.tcu.settled = false
  deck : ∀ d : DeckNo, (q.deck d).position.valid = false
    ∧ (q.deck d).sent = (match (p.deck d).sent with | .cueTo _ => .unknown | x => x)
    ∧ (q.deck d).direct = (p.deck d).direct.filter (fun x => x.command != .cueTo)
  active : q.eds.active = none
  slot : ∀ n : SlotNo, (q.slot n).arm = none ∧ (q.slot n).state ≠ .armed

/-- The change as the RTU hands it on, before LOCKED is left. -/
def Part.standardDetected (p : Part) (std : Standard) : Part :=
  (p.modRtu (fun r => { r with lock := .acquire, candidate := some std, run := 1, miss := 0 })).raise .standardChange

/-- Whatever keeps the tapes, the blocks beside the EDS and the notice between the detection and the standard-change
event, the event leaves what R13 says. -/
theorem Part.standardChangeEvent_detected (p q : Part) (std : Standard) (tapes : q.tapes = p.tapes)
    (aside : q.aside = (p.standardDetected std).aside) (notice : q.noticeSet .standardChange = true) :
    p.DetectedStandard q.standardChangeEvent std where
  rtu := (Part.rtu_of_aside q.standardChangeEvent_aside).trans (Part.rtu_of_aside aside)
  notice := by rw [Part.standardChangeEvent_noticeSet, notice, Bool.true_or]
  marks := q.standardChangeEvent_tcu.1
  settled := q.standardChangeEvent_tcu.2
  deck := by
    intro d
    have kept := Part.undemanded_of_tapes tapes d
    obtain ⟨valid, sent, direct⟩ := q.standardChangeEvent_deck d
    rw [Deck.sent_of_undemanded kept] at sent
    rw [Deck.direct_of_undemanded kept] at direct
    exact ⟨valid, sent, direct⟩
  active := q.standardChangeEvent_active
  slot := q.standardChangeEvent_unarmed

/-- Outside LOCKED a detected change is handed on at once. -/
theorem Part.detectStandard_freewheel (p : Part) (std : Standard) (h : p.rtu.lock = .freewheel) :
    p.detectStandard std = (p.standardDetected std).standardChangeEvent := by
  simp [Part.detectStandard, Part.standardDetected, h]

/-- In LOCKED the leaving of LOCKED is handed on first (log entry 14). -/
theorem Part.detectStandard_locked (p : Part) (std : Standard) (h : p.rtu.lock = .locked) :
    p.detectStandard std = (p.standardDetected std).lockLeft.standardChangeEvent := by
  simp [Part.detectStandard, Part.standardDetected, h]

/-- The slot of an event that is ACTIVE when a standard change reaches the EDS (R150). -/
theorem Part.standardChangeEvent_slot_active (p : Part) {n : SlotNo} (h : p.eds.active = some n) :
    p.standardChangeEvent.slot n = { p.slot n with
      state := .failed, arm := none
      run := { (p.slot n).run with reason := .standardChange, recordOn := none, recordOff := none } } := by
  rw [p.standardChangeEvent_slot, p.failEvent_slot _ h, Slot.closed_withoutCounts]

/-- The slot of an event that had failed before the standard change reached the EDS keeps its reason. -/
theorem Part.FailedAs.standardChangeEvent {p q : Part} {r : Reason} (failed : p.FailedAs q r) {n : SlotNo}
    (h : p.eds.active = some n) :
    q.standardChangeEvent.noticeSet .eventFailed = true
    ∧ q.standardChangeEvent.slot n = { p.slot n with
        state := .failed, arm := none, run := { (p.slot n).run with reason := r, recordOn := none, recordOff := none } } := by
  obtain ⟨slot, -, active, notice⟩ := failed n h
  rw [Part.standardChangeEvent_noticeSet, notice, Part.standardChangeEvent_slot, q.failEvent_none _ active, slot,
    Slot.closed_withoutCounts]
  exact ⟨rfl, rfl⟩

/-- The slot of the event that is ACTIVE when LOCKED is left for another standard: it fails with REF_LOST where the
leaving of LOCKED fails it, and with STANDARD_CHANGE elsewhere (log entry 14). -/
theorem Part.lockLeft_standardChangeEvent (p : Part) {n : SlotNo} (h : p.eds.active = some n) :
    p.lockLeft.standardChangeEvent.noticeSet .eventFailed = true
    ∧ p.lockLeft.standardChangeEvent.slot n = { p.slot n with
        state := .failed, arm := none
        run := { (p.slot n).run with
          reason := if p.eds.phase = .roll ∨ (p.eds.phase = .record ∧ p.eds.guardLimit = 0) then .refLost else .standardChange
          recordOn := none, recordOff := none } } := by
  have stays_active (q : Part) (active : q.eds.active = some n) (slot : q.slot n = p.slot n) :
      q.standardChangeEvent.noticeSet .eventFailed = true ∧ q.standardChangeEvent.slot n = _ :=
    ⟨by simp [Part.standardChangeEvent_noticeSet, active], slot ▸ q.standardChangeEvent_slot_active active⟩
  rcases p.lockLeft_cases with ⟨roll, eq⟩ | ⟨record, limit, eq⟩ | ⟨record, limit, eq⟩ | ⟨roll, record, eq⟩
  · rw [eq, if_pos (.inl roll)]
    exact (p.failEvent_failedAs .refLost).standardChangeEvent h
  · rw [eq, if_pos (.inr ⟨record, limit⟩)]
    exact p.startGuard.tripGuard_failedAs.standardChangeEvent h
  · rw [eq, if_neg (by simp [record, limit])]
    exact stays_active p.startGuard h rfl
  · rw [eq, if_neg (by simp [roll, record])]
    exact stays_active p h rfl

/-! ### A reference that closes a REF field -/

/-- The RTU after a reference that closes a REF field and arrives at a count (R1, R2; log entry 8). -/
def Part.closedAt (p : Part) (obs : FieldObs) (time : Nat) : Part := (p.arrivingAt time).refReference obs.closing

/-- A field that is well-formed of a standard is judged so. -/
theorem exec_refFieldWellFormed (s : State) {obs : FieldObs} (time : Nat) {f : FieldId} {std : Standard}
    (opened : s.part.rtu.refField = some f) (formed : standardOf { obs with id := f } = some std) :
    exec (.refFieldWellFormed obs time) s = ran s ((s.part.closedAt obs time).judgeGood std obs.closing) := by
  have closes : (s.part.arrivingAt time).rtu.refField = some f := opened
  simp only [exec, execRefFieldWellFormed, Part.refClosed, closes, formed]
  rfl

theorem Part.judgeGood_noRef (p : Part) (std : Standard) (f : FieldId) (h : p.rtu.lock = .noRef) :
    p.judgeGood std f = p.modRtu (fun r => { r with lock := .acquire, candidate := some std, run := 1, miss := 0 }) := by
  simp [Part.judgeGood, h]

theorem Part.judgeGood_acquire_start (p : Part) (std : Standard) (f : FieldId) (h : p.rtu.lock = .acquire)
    (fresh : p.rtu.run = 0 ∨ p.rtu.candidate ≠ some std) :
    p.judgeGood std f = p.modRtu (fun r => { r with lock := .acquire, candidate := some std, run := 1, miss := 0 }) := by
  simp [Part.judgeGood, Part.modRtu, h, fresh]

theorem Part.judgeGood_acquire_more (p : Part) (std : Standard) (f : FieldId) (h : p.rtu.lock = .acquire)
    (run : p.rtu.run ≠ 0) (same : p.rtu.candidate = some std) (short : p.rtu.run < 3) :
    p.judgeGood std f = p.modRtu (fun r => { r with run := r.run + 1, miss := 0 }) := by
  simp [Part.judgeGood, h, run, same, short]

theorem Part.judgeGood_freewheel_more (p : Part) (f : FieldId) (h : p.rtu.lock = .freewheel) (short : p.rtu.run < 3) :
    p.judgeGood p.rtu.std f = p.modRtu (fun r => { r with run := r.run + 1 }) := by
  simp [Part.judgeGood, h, short]

theorem Part.judgeGood_freewheel_other (p : Part) (std : Standard) (f : FieldId) (h : p.rtu.lock = .freewheel)
    (other : std ≠ p.rtu.std) : p.judgeGood std f = p.detectStandard std := by
  simp [Part.judgeGood, h, other]

theorem Part.judgeGood_locked_other (p : Part) (std : Standard) (f : FieldId) (h : p.rtu.lock = .locked)
    (other : std ≠ p.rtu.std) : p.judgeGood std f = p.detectStandard std := by
  simp [Part.judgeGood, h, other]

theorem Part.judgeGood_locked_inStep (p : Part) (f : FieldId) (h : p.rtu.lock = .locked) (agrees : p.rtu.agrees f = true) :
    p.judgeGood p.rtu.std f = p.modRtu (fun r => { r with miss := 0 }) := by
  simp [Part.judgeGood, h, agrees]

theorem Part.judgeGood_locked_outOfStep (p : Part) (f : FieldId) (h : p.rtu.lock = .locked)
    (disagrees : p.rtu.agrees f = false) : p.judgeGood p.rtu.std f = p.countMiss := by
  simp [Part.judgeGood, h, disagrees]

/-- A reference is in step where it arrives at a field start, just declared or due, and opens a field of the identity that
this field start gives (R3, R8, R10). -/
theorem Rtu.agrees_iff (r : Rtu) (f : FieldId) :
    r.agrees f = true ↔
      if r.timing.opened = true ∧ r.timing.elapsed = 0 then r.fieldId = f
      else r.timing.elapsed - r.timing.placed = Config.fieldLen r.std r.timing.counted ∧ r.timing.counted.other = f := by
  rw [Rtu.agrees, Rtu.startNow, beq_iff_eq]
  split
  · simp
  · simp only [Timing.within]
    by_cases due : r.timing.elapsed - r.timing.placed = Config.fieldLen r.std r.timing.counted <;> simp [due]

/-- Settles O8: the judgement of a well-formed field by the lock state; the standard change detected in FREEWHEEL is
handed to the EDS at once. -/
theorem referenceAcquired : Obligations.ReferenceAcquired := by
  intro s id obs time r opened seen
  refine ⟨rfl, fun none_open => ?_, fun f std field formed => ?_⟩
  · have closes_none : (s.part.arrivingAt time).rtu.refField = none := none_open
    simp only [exec, execRefFieldWellFormed, Part.refClosed, closes_none]
    rfl
  intro starts
  rw [exec_refFieldWellFormed s time field formed]
  let p := s.part.closedAt obs time
  refine ⟨fun lock => ?_, fun lock fresh => ?_, fun lock run same short => ?_, fun lock same short => ?_, fun lock other => ?_⟩
  · rw [p.judgeGood_noRef std _ lock]; rfl
  · rw [p.judgeGood_acquire_start std _ lock fresh]; rfl
  · rw [p.judgeGood_acquire_more std _ lock run same short]; rfl
  · subst same
    rw [show r.std = p.rtu.std from rfl, p.judgeGood_freewheel_more _ lock short]; rfl
  · rw [p.judgeGood_freewheel_other std _ lock other, p.detectStandard_freewheel std lock]
    let q := p.standardDetected std
    have change := p.standardChangeEvent_detected q std rfl rfl (Part.raise_noticeSet _ _)
    refine ⟨q.standardChangeEvent, rfl, change.rtu, change.notice, ?_, change.marks, change.settled, change.deck,
      change.active, change.slot, fun n active => q.standardChangeEvent_slot_active active⟩
    have kept : q.noticeSet .refLost = s.part.noticeSet .refLost := Part.raise_noticeSet_ne _ (by decide)
    simp [Part.standardChangeEvent_noticeSet, kept]

/-- Settles O10: in the standard in effect the judgement goes by `Rtu.agrees`; another standard leaves LOCKED first and is
then handed to the EDS. -/
theorem referenceJudgedInLocked : Obligations.ReferenceJudgedInLocked := by
  intro s obs time f std field formed lock r e t inStep lost
  rw [exec_refFieldWellFormed s time field formed]
  let p := s.part.closedAt obs time
  have inStep_iff : p.rtu.agrees obs.closing = true ↔ inStep := Rtu.agrees_iff _ _
  refine ⟨fun same agrees => ?_, fun same disagrees miss => ?_, fun same disagrees miss => ?_, fun other => ?_⟩
  · rw [same, show r.std = p.rtu.std from rfl, p.judgeGood_locked_inStep _ lock (inStep_iff.2 agrees)]; rfl
  · have out_of_step : p.rtu.agrees obs.closing = false := by rwa [← Bool.not_eq_true, inStep_iff]
    rw [same, show r.std = p.rtu.std from rfl, p.judgeGood_locked_outOfStep _ lock out_of_step, p.countMiss_first miss]; rfl
  · have out_of_step : p.rtu.agrees obs.closing = false := by rwa [← Bool.not_eq_true, inStep_iff]
    rw [same, show r.std = p.rtu.std from rfl, p.judgeGood_locked_outOfStep _ lock out_of_step, p.countMiss_second miss]
    exact ⟨p.enterFreewheel, rfl, p.enterFreewheel_lostRef⟩
  · rw [p.judgeGood_locked_other std _ lock other, p.detectStandard_locked std lock]
    let q := p.standardDetected std
    have change := p.standardChangeEvent_detected q.lockLeft std q.lockLeft_tapes q.lockLeft_aside
      (q.lockLeft_noticeSet_of (Part.raise_noticeSet _ _))
    exact ⟨q.lockLeft.standardChangeEvent, rfl, change.rtu, change.notice, change.marks, change.settled, change.deck,
      change.active, change.slot, fun n active => q.lockLeft_standardChangeEvent active⟩

end Sys2Proof.Machine
end

section
/-! ## The confirming reference (O11)

The entry to LOCKED in two halves: the part as the RTU has made it when the EDS hears of the lock (`Part.locking`), and
what the EDS then does (`Part.lockEntered`). -/

namespace Sys2Proof.Machine

open Sys2Proof

/-! ### Notices that only grow -/

/-- From `p` to `q` no notice is cleared, and only notices of `ns` are set. -/
def Part.Raises (ns : List Notice) (p q : Part) : Prop :=
  ∀ m, (p.noticeSet m = true → q.noticeSet m = true) ∧ (m ∉ ns → q.noticeSet m = p.noticeSet m)

theorem Part.Raises.of_pku {ns : List Notice} {p q : Part} (h : q.pku = p.pku) : Part.Raises ns p q :=
  fun m => ⟨fun set => (Part.noticeSet_congr h m).trans set, fun _ => Part.noticeSet_congr h m⟩

theorem Part.Raises.trans {ns : List Notice} {p q r : Part} (h1 : Part.Raises ns p q) (h2 : Part.Raises ns q r) :
    Part.Raises ns p r :=
  fun m => ⟨fun set => (h2 m).1 ((h1 m).1 set), fun out => ((h2 m).2 out).trans ((h1 m).2 out)⟩

theorem Part.raise_raises {ns : List Notice} (p : Part) {n : Notice} (h : n ∈ ns) : Part.Raises ns p (p.raise n) := by
  intro m
  rw [Part.raise_noticeSet_eq]
  exact ⟨fun set => by simp [set], fun out => by simp [show m ≠ n from fun e => out (e ▸ h)]⟩

theorem Part.failEvent_raises {ns : List Notice} (p : Part) (r : Reason) (failed : .eventFailed ∈ ns) (list : .listEnd ∈ ns) :
    Part.Raises ns p (p.failEvent r) := by
  intro m
  rw [Part.failEvent_noticeSet]
  refine ⟨fun set => by simp [set], fun out => ?_⟩
  simp [show m ≠ .eventFailed from fun e => out (e ▸ failed), show m ≠ .listEnd from fun e => out (e ▸ list)]

/-- The notices that the EDS can set when it hears of the lock. -/
def lockNotices : List Notice := [.guardTrip, .eventFailed, .listEnd, .holdWaiting]

/-! ### The move into ROLL and its ways there (R137, R138, R139) -/

/-- The active event is read off from the engine. -/
theorem Part.activeEvent_congr {p q : Part} (h : q.eds = p.eds) : q.activeEvent = p.activeEvent := by
  simp only [Part.activeEvent, Part.slot, h]

/-- What the entry to ROLL changes of the engine; it leaves the packet unit alone. -/
theorem Part.enterRoll_frame (p : Part) : p.enterRoll.tapes = p.tapes ∧ p.enterRoll.pku = p.pku := by
  unfold Part.enterRoll
  split <;> exact ⟨rfl, rfl⟩

/-- A claim of the preload makes the EDS its owner (R158). -/
theorem Mep.claim_owner (m : Mep) : m.claim.owner = .eds := by
  unfold Mep.claim
  split <;> rfl

/-- The preload that is written for the roll stands at level 0 (R139). -/
theorem Part.rollSet_level (p : Part) (e : EventRecord) (x : ParamSet) : (p.rollSet e x).level = 0 := by
  unfold Part.rollSet
  cases e.key <;> rfl

/-- The entry to ROLL: the EDS owns the preload, at level 0, and the latch stays (R139, R158). -/
theorem Part.enterRoll_spec (p : Part) (h : p.activeEvent ≠ none) :
    p.enterRoll.eds.phase = .roll ∧ p.enterRoll.eds.holdWaiting = false ∧ p.enterRoll.mep.owner = .eds
    ∧ p.enterRoll.mep.preload.level = 0 ∧ p.enterRoll.eds.latch = p.eds.latch := by
  obtain ⟨e, event⟩ := Option.ne_none_iff_exists'.1 h
  simp only [Part.enterRoll, event]
  exact ⟨rfl, rfl, p.mep.claim_owner, p.rollSet_level e p.mep.claim.preload, rfl⟩

/-- A release that is latched at the entry to HOLD is consumed and the event rolls (R138). -/
theorem Part.enterHold_latched (p : Part) (h : p.eds.latch = true) :
    p.enterHold = (p.modEds (fun e => { e with phase := .hold, latch := false })).enterRoll := by
  simp [Part.enterHold, h]

/-- With no release latched the engine waits in HOLD (R138). -/
theorem Part.enterHold_waits (p : Part) (h : p.eds.latch = false) :
    p.enterHold = (p.stillAll.modEds (fun e => { e with phase := .hold, holdWaiting := true })).raise .holdWaiting := by
  simp [Part.enterHold, h]

theorem Part.enterHold_frame (p : Part) : p.enterHold.tapes = p.tapes ∧ Part.Raises lockNotices p p.enterHold := by
  cases latch : p.eds.latch with
  | true =>
    rw [p.enterHold_latched latch]
    obtain ⟨tapes, pku⟩ := (p.modEds (fun e => { e with phase := .hold, latch := false })).enterRoll_frame
    exact ⟨tapes, .of_pku pku⟩
  | false =>
    rw [p.enterHold_waits latch]
    have pku_eq : p.stillAll.pku = p.pku := Part.pku_of_desk p.stillAll_desk
    exact ⟨p.stillAll_tapes, Part.Raises.trans (.of_pku pku_eq) (Part.raise_raises _ (by decide))⟩

/-- Every deck of the event has reached cue, deck by deck (R137). -/
theorem Part.allReached_iff (p : Part) :
    p.allReached = true ↔ ∀ d, p.inActiveEvent d = true → (p.eds.cues.get d).map CueRecord.state = some .reached := by
  simp only [Part.allReached, Part.eventDecks, List.all_eq_true, List.mem_filter]
  constructor
  · intro all d event
    have reached := all d ⟨mem_allDecks d, event⟩
    cases cue : p.eds.cues.get d <;> simp_all
  · rintro all d ⟨-, event⟩
    have reached := all d event
    cases cue : p.eds.cues.get d <;> simp_all

/-- The move out of CUE is not made before every deck has reached cue (R137). -/
theorem Part.leaveCue_stays (p : Part) (h : p.allReached = false) : p.leaveCue = p := by
  simp [Part.leaveCue, h]

/-- The move out of CUE, by the hold of the event (R137). -/
theorem Part.leaveCue_moves (p : Part) (phase : p.eds.phase = .cue) (lock : p.rtu.lock = .locked)
    (all : p.allReached = true) {e : EventRecord} (event : p.activeEvent = some e) :
    p.leaveCue = if e.hold = .beforeRoll then p.enterHold else p.enterRoll := by
  simp [Part.leaveCue, phase, lock, all, event]

theorem Part.leaveCue_frame (p : Part) : p.leaveCue.tapes = p.tapes ∧ Part.Raises lockNotices p p.leaveCue := by
  unfold Part.leaveCue
  split
  · split
    · split
      · exact p.enterHold_frame
      · exact ⟨p.enterRoll_frame.1, .of_pku p.enterRoll_frame.2⟩
    · exact ⟨rfl, .of_pku rfl⟩
  · exact ⟨rfl, .of_pku rfl⟩

/-- The move out of HOLD is not made before a release is latched (R138). -/
theorem Part.leaveHold_stays (p : Part) (h : p.eds.latch = false) : p.leaveHold = p := by
  simp [Part.leaveHold, h]

/-- The move out of HOLD (R138). -/
theorem Part.leaveHold_moves (p : Part) (phase : p.eds.phase = .hold) (lock : p.rtu.lock = .locked)
    (latch : p.eds.latch = true) :
    p.leaveHold = (p.modEds (fun e => { e with latch := false, holdWaiting := false })).enterRoll := by
  simp [Part.leaveHold, phase, lock, latch]

theorem Part.leaveHold_frame (p : Part) : p.leaveHold.tapes = p.tapes ∧ Part.Raises lockNotices p p.leaveHold := by
  unfold Part.leaveHold
  split
  · obtain ⟨tapes, pku⟩ := (p.modEds (fun e => { e with latch := false, holdWaiting := false })).enterRoll_frame
    exact ⟨tapes, .of_pku pku⟩
  · exact ⟨rfl, .of_pku rfl⟩

/-! ### What the EDS does when it hears of the lock (R137, R149) -/

/-- The guard when the lock is entered: it trips with REF_JUMP and stops without (R149). -/
def Part.guardAtLock (p : Part) (jump : Bool) : Part :=
  if p.eds.guardRunning then (if jump then p.tripGuard else p.stopGuard) else p

theorem Part.lockEntered_eq (p : Part) (jump : Bool) :
    p.lockEntered jump = match (p.guardAtLock jump).eds.phase with
      | .cue => (p.guardAtLock jump).leaveCue
      | .hold => (p.guardAtLock jump).leaveHold
      | _ => p.guardAtLock jump := rfl

/-- With no guard running the guard does nothing at the lock. -/
theorem Part.guardAtLock_off (p : Part) (jump : Bool) (h : p.eds.guardRunning = false) : p.guardAtLock jump = p := by
  simp [Part.guardAtLock, h]

theorem Part.lockEntered_cue (p : Part) (jump : Bool) (h : (p.guardAtLock jump).eds.phase = .cue) :
    p.lockEntered jump = (p.guardAtLock jump).leaveCue := by
  rw [p.lockEntered_eq, h]

theorem Part.lockEntered_hold (p : Part) (jump : Bool) (h : (p.guardAtLock jump).eds.phase = .hold) :
    p.lockEntered jump = (p.guardAtLock jump).leaveHold := by
  rw [p.lockEntered_eq, h]

theorem Part.lockEntered_other (p : Part) (jump : Bool) (cue : (p.guardAtLock jump).eds.phase ≠ .cue)
    (hold : (p.guardAtLock jump).eds.phase ≠ .hold) : p.lockEntered jump = p.guardAtLock jump := by
  rw [p.lockEntered_eq]
  split
  · exact absurd ‹_› cue
  · exact absurd ‹_› hold
  · rfl

theorem Part.guardAtLock_frame (p : Part) (jump : Bool) :
    (p.guardAtLock jump).tapes = p.tapes ∧ Part.Raises lockNotices p (p.guardAtLock jump) := by
  unfold Part.guardAtLock
  split
  · split
    · exact ⟨p.tripGuard_tapes, (p.raise_raises (by decide)).trans (Part.failEvent_raises _ _ (by decide) (by decide))⟩
    · exact ⟨rfl, .of_pku rfl⟩
  · exact ⟨rfl, .of_pku rfl⟩

/-- The EDS leaves the tapes alone, and sets no notice but its own. -/
theorem Part.lockEntered_frame (p : Part) (jump : Bool) :
    (p.lockEntered jump).tapes = p.tapes ∧ Part.Raises lockNotices p (p.lockEntered jump) := by
  let g := p.guardAtLock jump
  obtain ⟨guard_tapes, guard_raises⟩ := p.guardAtLock_frame jump
  by_cases cue : g.eds.phase = .cue
  · rw [p.lockEntered_cue jump cue]
    exact ⟨g.leaveCue_frame.1.trans guard_tapes, guard_raises.trans g.leaveCue_frame.2⟩
  by_cases hold : g.eds.phase = .hold
  · rw [p.lockEntered_hold jump hold]
    exact ⟨g.leaveHold_frame.1.trans guard_tapes, guard_raises.trans g.leaveHold_frame.2⟩
  · rw [p.lockEntered_other jump cue hold]
    exact ⟨guard_tapes, guard_raises⟩

end Sys2Proof.Machine
end

section
namespace Sys2Proof.Machine

open Sys2Proof

/-! ### The RTU as it enters LOCKED (R8, R9, R14) -/

/-- The RTU in LOCKED, its counts cleared and no candidate left (R8; log entry 21). -/
def Part.lockedNow (p : Part) : Part :=
  p.modRtu (fun r => { r with lock := .locked, run := 0, miss := 0, candidate := none })

/-- The snap of the timing onto REF, with its notice (R9). -/
def Part.snappedOnto (p : Part) (f : FieldId) (due : Option (FieldId × Standard)) : Part :=
  (p.modRtu (fun r => { r with timing := r.timing.snapped f due })).raise .refJump

theorem Part.snappedOnto_rtu (p : Part) (f : FieldId) (due : Option (FieldId × Standard)) :
    (p.snappedOnto f due).rtu = { p.rtu with timing := p.rtu.timing.snapped f due } := rfl

/-- No notice is cleared by the snap. -/
theorem Part.snappedOnto_noticeSet (p : Part) (f : FieldId) (due : Option (FieldId × Standard)) (m : Notice) :
    (p.snappedOnto f due).noticeSet m = (m == .refJump || p.noticeSet m) := Part.raise_noticeSet_eq _ _ _

/-- The part as the EDS finds it: the field at this instant counts as opened in LOCKED, and the counting is settled. -/
def Part.handed (p : Part) : Part := p.countOpened.modTcu (fun t => { t with settled := true })

theorem Part.handed_frame (p : Part) :
    p.handed.rtu = p.rtu ∧ p.handed.sius = p.sius ∧ p.handed.eds = p.eds ∧ p.handed.decks = p.decks
    ∧ p.handed.tcu = { p.tcu with settled := true } ∧ ∀ m, p.handed.noticeSet m = p.noticeSet m := by
  unfold Part.handed Part.countOpened
  split <;> exact ⟨rfl, rfl, rfl, rfl, rfl, fun _ => rfl⟩

/-- Where the timings agree in the standard in effect, the timing stays. -/
theorem Part.enterLocked_steady (p : Part) (f : FieldId) (agrees : p.rtu.agrees f = true) :
    p.enterLocked p.rtu.std f = p.lockedNow.handed.lockEntered false := by
  simp [Part.enterLocked, agrees, Part.handLocked, Part.handed, Part.lockedNow]

/-- Where they do not, the timing snaps. -/
theorem Part.enterLocked_snap (p : Part) (f : FieldId) (disagrees : p.rtu.agrees f = false) :
    p.enterLocked p.rtu.std f = (p.lockedNow.snappedOnto f p.rtu.dueStart).handed.lockEntered true := by
  simp [Part.enterLocked, disagrees, Part.handLocked, Part.handed, Part.lockedNow, Part.snappedOnto]

/-- Another standard takes effect first, and the timing snaps. -/
theorem Part.enterLocked_other (p : Part) (std : Standard) (f : FieldId) (other : std ≠ p.rtu.std) :
    p.enterLocked std f
      = ((p.lockedNow.takeStandard std).snappedOnto f p.rtu.dueStart).handed.lockEntered true := by
  have changed : (p.rtu.std != std) = true := by simpa using other.symm
  simp [Part.enterLocked, changed, Part.handLocked, Part.handed, Part.lockedNow, Part.snappedOnto]

/-- The confirming field, in ACQUIRE of the candidate and in FREEWHEEL of the standard in effect, enters LOCKED (R8). -/
theorem Part.judgeGood_confirms (p : Part) (std : Standard) (f : FieldId) (run : p.rtu.run = 3)
    (h : (p.rtu.lock = .acquire ∧ p.rtu.candidate = some std) ∨ (p.rtu.lock = .freewheel ∧ std = p.rtu.std)) :
    p.judgeGood std f = p.enterLocked std f := by
  rcases h with ⟨lock, same⟩ | ⟨lock, same⟩ <;> simp [Part.judgeGood, run, lock, same]

/-! ### The three ways in, before the EDS hears of them -/

/-- A standard that takes effect: its notice, R45 at the inputs, and the standard-change event (R14). -/
theorem Part.takeStandard_eq (p : Part) (std : Standard) :
    ∃ q : Part, p.takeStandard std = q.standardChangeEvent ∧ q.rtu = { p.rtu with std := std } ∧ q.decks = p.decks
      ∧ q.eds = p.eds ∧ q.sius = p.sius.map Siu.standardTaken ∧ q.noticeSet .standardChange = true :=
  ⟨_, rfl, rfl, rfl, rfl, rfl, Part.raise_noticeSet _ _⟩

/-- After the failure of an active event no guard runs. -/
theorem Part.standardChangeEvent_guard (p : Part) {n : SlotNo} (h : p.eds.active = some n) :
    p.standardChangeEvent.eds.phase = .idle ∧ p.standardChangeEvent.eds.guardRunning = false := by
  have eds_eq : ((p.countingChanged.modTcu (fun t => { t with settled := false })).failEvent .standardChange).eds
      = p.eds.failed .standardChange := Part.failEvent_eds _ _
  rw [Part.standardChangeEvent, Part.edsStandardChange, Part.dropCounts, Part.modEds_eds, Part.disarmAll_eds, eds_eq,
    Eds.failed, h]
  exact ⟨rfl, rfl⟩

/-! ### What the EDS does without a guard to judge -/

/-- The event rolls: ROLL, and the EDS owns the preload at level 0 (R139). -/
def Part.Rolls (p : Part) : Prop :=
  p.eds.phase = .roll ∧ p.eds.holdWaiting = false ∧ p.mep.owner = .eds ∧ p.mep.preload.level = 0

/-- An event that moves into ROLL rolls, and the latch stays as it was. -/
theorem Part.enterRoll_rolls (p : Part) (h : p.activeEvent ≠ none) :
    p.enterRoll.Rolls ∧ p.enterRoll.eds.latch = p.eds.latch := by
  obtain ⟨phase, waiting, owner, level, latch⟩ := p.enterRoll_spec h
  exact ⟨⟨phase, waiting, owner, level⟩, latch⟩

/-- A latched release takes the event from CUE through HOLD into ROLL, and is consumed (R138). -/
theorem Part.enterHold_rolls (p : Part) (h : p.activeEvent ≠ none) (latch : p.eds.latch = true) :
    p.enterHold.Rolls ∧ p.enterHold.eds.latch = false := by
  rw [p.enterHold_latched latch]
  exact (p.modEds (fun e => { e with phase := .hold, latch := false })).enterRoll_rolls h

/-- An event without a latched release comes to wait in HOLD (R138). -/
theorem Part.enterHold_waiting (p : Part) (latch : p.eds.latch = false) :
    p.enterHold.eds = { p.eds with phase := .hold, holdWaiting := true } ∧ p.enterHold.noticeSet .holdWaiting = true := by
  have eds_eq : p.stillAll.eds = p.eds := Part.eds_of_desk p.stillAll_desk
  rw [p.enterHold_waits latch]
  refine ⟨?_, Part.raise_noticeSet _ _⟩
  rw [Part.raise_eds, Part.modEds_eds, eds_eq]

/-- In LOCKED with no guard running the EDS makes the move out of CUE or HOLD that is owed, and nothing else (R137,
R138). -/
theorem Part.lockEntered_moves (p : Part) (jump : Bool) (lock : p.rtu.lock = .locked) (off : p.eds.guardRunning = false) :
    let q := p.lockEntered jump
    (p.eds.phase ≠ .cue → p.eds.phase ≠ .hold → q.eds = p.eds)
    ∧ (p.eds.phase = .hold → p.eds.latch = false → q.eds = p.eds)
    ∧ (p.eds.phase = .hold → p.eds.latch = true → p.activeEvent ≠ none → q.Rolls ∧ q.eds.latch = false)
    ∧ (p.eds.phase = .cue → p.allReached = false → q.eds = p.eds)
    ∧ (p.eds.phase = .cue → p.allReached = true → ∀ x, p.activeEvent = some x →
        (x.hold = .noHold → q.Rolls ∧ q.eds.latch = p.eds.latch)
        ∧ (x.hold = .beforeRoll → p.eds.latch = true → q.Rolls ∧ q.eds.latch = false)
        ∧ (x.hold = .beforeRoll → p.eds.latch = false →
            q.eds = { p.eds with phase := .hold, holdWaiting := true } ∧ q.noticeSet .holdWaiting = true)) := by
  intro q
  have guard_eq : p.guardAtLock jump = p := p.guardAtLock_off jump off
  have in_cue (cue : p.eds.phase = .cue) : q = p.leaveCue := by
    rw [← guard_eq] at cue
    exact (p.lockEntered_cue jump cue).trans (by rw [guard_eq])
  have in_hold (hold : p.eds.phase = .hold) : q = p.leaveHold := by
    rw [← guard_eq] at hold
    exact (p.lockEntered_hold jump hold).trans (by rw [guard_eq])
  refine ⟨fun cue hold => ?_, fun hold latch => ?_, fun hold latch event => ?_, fun cue missing => ?_, fun cue all x event => ?_⟩
  · rw [← guard_eq] at cue hold
    have stays : q = p.guardAtLock jump := p.lockEntered_other jump cue hold
    rw [stays, guard_eq]
  · rw [in_hold hold, p.leaveHold_stays latch]
  · rw [in_hold hold, p.leaveHold_moves hold lock latch]
    exact (p.modEds (fun e => { e with latch := false, holdWaiting := false })).enterRoll_rolls event
  · rw [in_cue cue, p.leaveCue_stays missing]
  · have some_event : p.activeEvent ≠ none := by simp [event]
    rw [in_cue cue, p.leaveCue_moves cue lock all event]
    refine ⟨fun none_held => ?_, fun held latch => ?_, fun held latch => ?_⟩
    · rw [if_neg (by simp [none_held])]
      exact p.enterRoll_rolls some_event
    · rw [if_pos held]
      exact p.enterHold_rolls some_event latch
    · rw [if_pos held]
      exact p.enterHold_waiting latch

/-- What the EDS judges of the decks of the event looks at the engine and the deck records. -/
theorem Part.allReached_congr {p q : Part} (eds : q.eds = p.eds) (decks : q.decks = p.decks) : q.allReached = p.allReached := by
  have in_event : q.inActiveEvent = p.inActiveEvent := by
    funext d
    simp only [Part.inActiveEvent, Part.activeEvent_congr eds, Part.deck, decks]
  simp only [Part.allReached, Part.eventDecks, in_event, eds]

/-- With a guard running in RECORD a lock without a jump stops it (R149). -/
theorem Part.lockEntered_stops (p : Part) (running : p.eds.guardRunning = true) (record : p.eds.phase = .record) :
    (p.lockEntered false).eds = { p.eds with guardRunning := false, guardCount := 0 } := by
  have guard_eq : p.guardAtLock false = p.stopGuard := by simp [Part.guardAtLock, running]
  have phase : (p.guardAtLock false).eds.phase = .record := by rw [guard_eq]; exact record
  rw [p.lockEntered_other false (by simp [phase]) (by simp [phase]), guard_eq]
  rfl

/-- With a guard running a lock with a jump trips it (R149). -/
theorem Part.lockEntered_trips (p : Part) (running : p.eds.guardRunning = true) {n : SlotNo} (active : p.eds.active = some n) :
    (p.lockEntered true).noticeSet .guardTrip = true ∧ (p.lockEntered true).eds.phase = .idle
    ∧ (p.lockEntered true).slot n = (p.slot n).closed .failed .refLost := by
  have guard_eq : p.guardAtLock true = p.tripGuard := by simp [Part.guardAtLock, running]
  obtain ⟨slot, idle, -, -⟩ := p.tripGuard_failedAs n active
  rw [← guard_eq] at slot idle
  rw [p.lockEntered_other true (by simp [idle]) (by simp [idle])]
  exact ⟨by simp [guard_eq, Part.tripGuard_noticeSet], idle, slot⟩

/-- In IDLE with no guard running the EDS does nothing. -/
theorem Part.lockEntered_idle (p : Part) (jump : Bool) (idle : p.eds.phase = .idle) (off : p.eds.guardRunning = false) :
    p.lockEntered jump = p := by
  have guard_eq : p.guardAtLock jump = p := p.guardAtLock_off jump off
  rw [p.lockEntered_other jump (by simp [guard_eq, idle]) (by simp [guard_eq, idle]), guard_eq]

/-- What the EDS can do at the lock when the standard in effect stays: the guard and the moves owed, on the engine and
the decks as they stood (R137, R149). -/
theorem Part.lockEntered_sameStandard (p b : Part) (jump : Bool) (lock : b.rtu.lock = .locked) (eds : b.eds = p.eds)
    (decks : b.decks = p.decks) :
    let q := b.lockEntered jump
    let e := p.eds
    let reached : Prop := ∀ d : DeckNo, p.inActiveEvent d = true → (e.cues.get d).map CueRecord.state = some .reached
    (e.guardRunning = true →
      (jump = false → e.phase = .record → q.eds = { e with guardRunning := false, guardCount := 0 })
      ∧ (jump = true → ∀ n, e.active = some n → q.noticeSet .guardTrip = true ∧ q.eds.phase = .idle
          ∧ q.slot n = (p.slot n).closed .failed .refLost))
    ∧ (e.guardRunning = false →
      (e.phase ≠ .cue → e.phase ≠ .hold → q.eds = e)
      ∧ (e.phase = .hold → e.latch = false → q.eds = e)
      ∧ (e.phase = .hold → e.latch = true → p.activeEvent ≠ none → q.Rolls ∧ q.eds.latch = false)
      ∧ (e.phase = .cue → ¬ reached → q.eds = e)
      ∧ (e.phase = .cue → reached → ∀ x, p.activeEvent = some x →
          (x.hold = .noHold → q.Rolls ∧ q.eds.latch = e.latch)
          ∧ (x.hold = .beforeRoll → e.latch = true → q.Rolls ∧ q.eds.latch = false)
          ∧ (x.hold = .beforeRoll → e.latch = false →
              q.eds = { e with phase := .hold, holdWaiting := true } ∧ q.noticeSet .holdWaiting = true))) := by
  intro q e reached
  refine ⟨fun running => ⟨fun steady record => ?_, fun jumped n active => ?_⟩, fun off => ?_⟩
  · subst steady
    rw [b.lockEntered_stops (eds ▸ running) (eds ▸ record), eds]
  · subst jumped
    have slot_eq : b.slot n = p.slot n := by rw [Part.slot, Part.slot, eds]
    rw [← slot_eq]
    exact b.lockEntered_trips (eds ▸ running) (eds ▸ active)
  · have moves := b.lockEntered_moves jump lock (eds ▸ off)
    have reached_iff : p.allReached = true ↔ reached := p.allReached_iff
    have missing_iff : p.allReached = false ↔ ¬ reached := by rw [← Bool.not_eq_true, reached_iff]
    rw [eds, Part.activeEvent_congr eds, Part.allReached_congr eds decks, missing_iff, reached_iff] at moves
    exact moves

/-- What a standard that takes effect leaves, whatever the EDS then does at the lock (R14, R45, R88, R150). -/
theorem Part.lockEntered_newStandard (p c b : Part) (jump : Bool) (rest : c.decks = p.decks ∧ c.eds = p.eds)
    (changed : c.noticeSet .standardChange = true) (eds : b.eds = c.standardChangeEvent.eds)
    (decks : b.decks = c.standardChangeEvent.decks) (marks : b.tcu.marks = c.standardChangeEvent.tcu.marks)
    (notices : ∀ m, c.standardChangeEvent.noticeSet m = true → b.noticeSet m = true) :
    let q := b.lockEntered jump
    (∀ d : DeckNo, (q.deck d).position.valid = false
      ∧ (q.deck d).sent = (match (p.deck d).sent with | .cueTo _ => .unknown | x => x)
      ∧ (q.deck d).direct = (p.deck d).direct.filter (fun x => x.command != .cueTo))
    ∧ q.noticeSet .standardChange = true ∧ q.tcu.marks = []
    ∧ ∀ n, p.eds.active = some n → q.eds.active = none ∧ q.noticeSet .eventFailed = true ∧ q.slot n = { p.slot n with
        state := .failed, arm := none
        run := { (p.slot n).run with reason := .standardChange, recordOn := none, recordOff := none } } := by
  intro q
  obtain ⟨old_decks, old_eds⟩ := rest
  obtain ⟨tapes, raises⟩ := b.lockEntered_frame jump
  refine ⟨fun d => ?_, (raises _).1 (notices _ ?_), ?_, fun n active => ?_⟩
  · have kept := Part.undemanded_of_tapes tapes d
    have deck_eq : b.deck d = c.standardChangeEvent.deck d := by rw [Part.deck, Part.deck, decks]
    have old_deck : c.deck d = p.deck d := by rw [Part.deck, Part.deck, old_decks]
    rw [Deck.position_of_undemanded kept, Deck.sent_of_undemanded kept, Deck.direct_of_undemanded kept, deck_eq, ← old_deck]
    exact c.standardChangeEvent_deck d
  · simp [Part.standardChangeEvent_noticeSet, changed]
  · rw [Part.tcu_of_tapes tapes, marks, c.standardChangeEvent_tcu.1]
  · rw [← old_eds] at active
    obtain ⟨idle, off⟩ := c.standardChangeEvent_guard active
    have stays : q = b := b.lockEntered_idle jump (eds ▸ idle) (eds ▸ off)
    have slot_eq (m : SlotNo) : b.slot m = c.standardChangeEvent.slot m := by rw [Part.slot, Part.slot, eds]
    have old_slot : c.slot n = p.slot n := by rw [Part.slot, Part.slot, old_eds]
    rw [stays, slot_eq, c.standardChangeEvent_slot_active active, old_slot, eds]
    exact ⟨c.standardChangeEvent_active, notices _ (by simp [Part.standardChangeEvent_noticeSet, active]), rfl⟩

/-! ### The statement -/

/-- Settles O11: steady, snapped, or with another standard, the entry to LOCKED is its RTU part followed by what the EDS
does when it hears of it. -/
theorem confirmingReference : Obligations.ConfirmingReference := by
  intro s obs time f std field formed run confirmed r t e steady due locked reached rolls
  let p := s.part.closedAt obs time
  have judged : p.judgeGood std obs.closing = p.enterLocked std obs.closing := p.judgeGood_confirms std _ run confirmed
  have steady_iff : steady ↔ std = p.rtu.std ∧ p.rtu.agrees obs.closing = true :=
    and_congr_right fun _ => (Rtu.agrees_iff _ _).symm
  rw [exec_refFieldWellFormed s time field formed, judged]
  refine ⟨p.enterLocked std obs.closing, rfl, ?_⟩
  by_cases same : std = p.rtu.std
  · subst same
    by_cases agrees : p.rtu.agrees obs.closing = true
    · have is_steady : steady := steady_iff.2 ⟨rfl, agrees⟩
      obtain ⟨rtu, sius, eds, decks, tcu, notices⟩ := p.lockedNow.handed_frame
      let b := p.lockedNow.handed
      obtain ⟨tapes, raises⟩ := b.lockEntered_frame false
      obtain ⟨guarded, moves⟩ := s.part.lockEntered_sameStandard b false (by rw [rtu]; rfl) eds decks
      rw [p.enterLocked_steady _ agrees]
      refine ⟨fun _ => ⟨(Part.rtu_of_aside (b.lockEntered_aside false)).trans rtu, ((raises _).2 (by decide)).trans (notices _)⟩,
        fun unsteady => absurd is_steady unsteady, by rw [Part.tcu_of_tapes tapes, tcu],
        fun _ => (Part.sius_of_aside (b.lockEntered_aside false)).trans sius, fun other => absurd rfl other,
        fun other => absurd rfl other, fun _ running => ⟨fun _ => (guarded running).1 rfl, fun unsteady => absurd is_steady unsteady⟩,
        fun _ => moves⟩
    · have unsteady : ¬ steady := fun h => agrees (steady_iff.1 h).2
      obtain ⟨rtu, sius, eds, decks, tcu, notices⟩ := (p.lockedNow.snappedOnto obs.closing p.rtu.dueStart).handed_frame
      let b := (p.lockedNow.snappedOnto obs.closing p.rtu.dueStart).handed
      obtain ⟨tapes, raises⟩ := b.lockEntered_frame true
      obtain ⟨guarded, moves⟩ := s.part.lockEntered_sameStandard b true (by rw [rtu]; rfl) eds decks
      have jump_set : b.noticeSet .refJump = true := (notices _).trans (Part.raise_noticeSet _ _)
      rw [p.enterLocked_snap _ (by simpa using agrees)]
      refine ⟨fun h => absurd h unsteady,
        fun _ => ⟨(raises _).1 jump_set, (Part.rtu_of_aside (b.lockEntered_aside true)).trans rtu⟩,
        by rw [Part.tcu_of_tapes tapes, tcu],
        fun _ => (Part.sius_of_aside (b.lockEntered_aside true)).trans sius, fun other => absurd rfl other,
        fun other => absurd rfl other, fun _ running => ⟨fun h => absurd h unsteady, fun _ => (guarded running).2 rfl⟩,
        fun _ => moves⟩
  · have unsteady : ¬ steady := fun h => same (steady_iff.1 h).1
    obtain ⟨c, takes, old_rtu, old_decks, old_eds, old_sius, changed⟩ := p.lockedNow.takeStandard_eq std
    obtain ⟨rtu, sius, eds, decks, tcu, notices⟩ := (c.standardChangeEvent.snappedOnto obs.closing p.rtu.dueStart).handed_frame
    let b := (c.standardChangeEvent.snappedOnto obs.closing p.rtu.dueStart).handed
    obtain ⟨tapes, raises⟩ := b.lockEntered_frame true
    have jump_set : b.noticeSet .refJump = true := (notices _).trans (Part.raise_noticeSet _ _)
    have marks : b.tcu.marks = c.standardChangeEvent.tcu.marks := by rw [tcu]; rfl
    obtain ⟨new_decks, new_notice, new_marks, new_slot⟩ := s.part.lockEntered_newStandard c b true ⟨old_decks, old_eds⟩ changed
      eds decks marks (fun m set => by rw [notices, Part.snappedOnto_noticeSet, set, Bool.or_true])
    have rtu_eq : c.standardChangeEvent.rtu = { p.lockedNow.rtu with std := std } :=
      (Part.rtu_of_aside c.standardChangeEvent_aside).trans old_rtu
    have sius_eq : c.standardChangeEvent.sius = p.sius.map Siu.standardTaken :=
      (Part.sius_of_aside c.standardChangeEvent_aside).trans old_sius
    rw [p.enterLocked_other std obs.closing same, takes]
    refine ⟨fun h => absurd h unsteady, fun _ => ⟨(raises _).1 jump_set, ?_⟩, by rw [Part.tcu_of_tapes tapes, tcu],
      fun h => absurd h same, fun _ => ⟨fun i => ?_, new_decks⟩, fun _ => ⟨new_notice, new_marks, new_slot⟩,
      fun h => absurd h same, fun h => absurd h same⟩
    · rw [Part.rtu_of_aside (b.lockEntered_aside true), rtu, Part.snappedOnto_rtu, rtu_eq]
      rfl
    · rw [Part.siu, Part.sius_of_aside (b.lockEntered_aside true), sius]
      show c.standardChangeEvent.sius.get i.idx = _
      rw [sius_eq, Table.get_map]
      rfl

end Sys2Proof.Machine
end

section
/-! ## Laws: the ledger

What no move of the Edit Sequencer, the chase, the tape positions or a field start's work touches beside the blocks of
`Part.aside`: the packet unit but for its notices, and the timeouts counted on each deck. One lemma per operation, in the
order of the model's definitions. -/

namespace Sys2Proof.Machine

open Sys2Proof

/-- The packet unit without its notices. -/
def Pku.unnoticed (k : Pku) : Pku := { k with notices := 0 }

/-- The packet unit but for its notices, and the timeouts of each deck. -/
def Part.ledger (p : Part) : Pku × Table Nat 4 := (p.pku.unnoticed, p.decks.map Deck.timeouts)

theorem Part.unnoticed_of_ledger {p q : Part} (h : q.ledger = p.ledger) : q.pku.unnoticed = p.pku.unnoticed :=
  congrArg Prod.fst h

theorem Part.errors_of_ledger {p q : Part} (h : q.ledger = p.ledger) : q.pku.errors = p.pku.errors :=
  (congrArg Pku.errors (Part.unnoticed_of_ledger h) : q.pku.unnoticed.errors = p.pku.unnoticed.errors)

theorem Part.timeouts_of_ledger {p q : Part} (h : q.ledger = p.ledger) (d : DeckNo) :
    (q.deck d).timeouts = (p.deck d).timeouts :=
  Table.get_eq_of_map_eq (congrArg Prod.snd h) d

/-! ### Updates and demands -/

@[simp] theorem Part.modDeck_ledger (p : Part) (d : DeckNo) (f : Deck → Deck) (h : ∀ k, (f k).timeouts = k.timeouts) :
    (p.modDeck d f).ledger = p.ledger :=
  Prod.ext rfl (Table.map_modify _ _ d f h)

@[simp] theorem Part.modPort_ledger (p : Part) (d : DeckNo) (f : Port → Port) : (p.modPort d f).ledger = p.ledger := rfl
@[simp] theorem Part.modSiu_ledger (p : Part) (i : Input) (f : Siu → Siu) : (p.modSiu i f).ledger = p.ledger := rfl
@[simp] theorem Part.modChase_ledger (p : Part) (d : DeckNo) (f : ChaseOwn → ChaseOwn) : (p.modChase d f).ledger = p.ledger := rfl
@[simp] theorem Part.modEds_ledger (p : Part) (f : Eds → Eds) : (p.modEds f).ledger = p.ledger := rfl
@[simp] theorem Part.modSlot_ledger (p : Part) (n : SlotNo) (f : Slot → Slot) : (p.modSlot n f).ledger = p.ledger := rfl
@[simp] theorem Part.modMep_ledger (p : Part) (f : Mep → Mep) : (p.modMep f).ledger = p.ledger := rfl
@[simp] theorem Part.modRtu_ledger (p : Part) (f : Rtu → Rtu) : (p.modRtu f).ledger = p.ledger := rfl
@[simp] theorem Part.modTcu_ledger (p : Part) (f : Tcu → Tcu) : (p.modTcu f).ledger = p.ledger := rfl
@[simp] theorem Part.modGtu_ledger (p : Part) (f : Gtu → Gtu) : (p.modGtu f).ledger = p.ledger := rfl
@[simp] theorem Part.raise_ledger (p : Part) (n : Notice) : (p.raise n).ledger = p.ledger := rfl
@[simp] theorem Part.setSyncWatch_ledger (p : Part) (b : Bool) : (p.setSyncWatch b).ledger = p.ledger := rfl

@[simp] theorem Part.wantTransport_ledger (p : Part) (d : DeckNo) (w : Want) : (p.wantTransport d w).ledger = p.ledger := by
  simp [Part.wantTransport]

@[simp] theorem Part.wantTransportResent_ledger (p : Part) (d : DeckNo) (w : Want) :
    (p.wantTransportResent d w).ledger = p.ledger := by
  simp [Part.wantTransportResent]

@[simp] theorem Part.wantRecordOn_ledger (p : Part) (d : DeckNo) (tracks : BitVec 4) :
    (p.wantRecordOn d tracks).ledger = p.ledger := by
  simp [Part.wantRecordOn]

@[simp] theorem Part.wantRecordOff_ledger (p : Part) (d : DeckNo) : (p.wantRecordOff d).ledger = p.ledger := by
  simp [Part.wantRecordOff]

@[simp] theorem Part.wantSpeed_ledger (p : Part) (d : DeckNo) (v : Int) : (p.wantSpeed d v).ledger = p.ledger := by
  simp [Part.wantSpeed]

@[simp] theorem Part.dropDirect_ledger (p : Part) (d : DeckNo) : (p.dropDirect d).ledger = p.ledger := by
  simp [Part.dropDirect]

/-! ### The Edit Sequencer -/

@[simp] theorem Part.chaseStart_ledger (p : Part) (d : DeckNo) (a b : Nat) : (p.chaseStart d a b).ledger = p.ledger := by
  simp [Part.chaseStart]

@[simp] theorem Part.chaseStop_ledger (p : Part) (d : DeckNo) : (p.chaseStop d).ledger = p.ledger := by
  simp [Part.chaseStop]

@[simp] theorem Part.chaseStopAll_ledger (p : Part) : p.chaseStopAll.ledger = p.ledger :=
  Part.each_keeps Part.ledger _ (fun d q => by split <;> simp) _ _

@[simp] theorem Part.enterIdle_ledger (p : Part) (b : Bool) : (p.enterIdle b).ledger = p.ledger := rfl

@[simp] theorem Part.endList_ledger (p : Part) : p.endList.ledger = p.ledger := rfl

@[simp] theorem Part.stopGuard_ledger (p : Part) : p.stopGuard.ledger = p.ledger := rfl

@[simp] theorem Part.stillAll_ledger (p : Part) : p.stillAll.ledger = p.ledger :=
  Part.each_keeps Part.ledger _ (fun d q => by simp) _ _

@[simp] theorem Part.recordOff_ledger (p : Part) : p.recordOff.ledger = p.ledger := by
  unfold Part.recordOff
  split <;> simp

@[simp] theorem Part.closeSlot_ledger (p : Part) (st : SlotState) (r : Reason) : (p.closeSlot st r).ledger = p.ledger := by
  unfold Part.closeSlot
  split <;> simp

@[simp] theorem Part.closeEvent_ledger (p : Part) (st : SlotState) (r : Reason) : (p.closeEvent st r).ledger = p.ledger := by
  simp [Part.closeEvent]

@[simp] theorem Part.disarmAll_ledger (p : Part) : p.disarmAll.ledger = p.ledger := rfl

@[simp] theorem Part.failEvent_ledger (p : Part) (r : Reason) : (p.failEvent r).ledger = p.ledger := by
  unfold Part.failEvent
  split <;> simp

@[simp] theorem Part.abortEvent_ledger (p : Part) (r : Reason) : (p.abortEvent r).ledger = p.ledger := by
  unfold Part.abortEvent
  split <;> simp

@[simp] theorem Part.resetEngine_ledger (p : Part) : p.resetEngine.ledger = p.ledger := by
  unfold Part.resetEngine
  split <;> simp

@[simp] theorem Part.setCue_ledger (p : Part) (d : DeckNo) (c : CueRecord) : (p.setCue d c).ledger = p.ledger := rfl

@[simp] theorem Part.giveCue_ledger (p : Part) (a : ArmResults) (d : DeckNo) : (p.giveCue a d).ledger = p.ledger := by
  unfold Part.giveCue
  split <;> simp

@[simp] theorem Part.activate_ledger (p : Part) (n : SlotNo) (a : ArmResults) : (p.activate n a).ledger = p.ledger :=
  Part.each_keeps Part.ledger _ (fun d q => by simp) _ _

@[simp] theorem Part.startEvent_ledger (p : Part) (n : SlotNo) : (p.startEvent n).ledger = p.ledger := by
  unfold Part.startEvent
  split
  · rfl
  · dsimp only
    split
    · simp
    · rw [Part.each_keeps Part.ledger _ (fun d q => by simp)]
      simp

@[simp] theorem Part.setCursor_ledger (p : Part) (n : SlotNo) : (p.setCursor n).ledger = p.ledger := rfl

@[simp] theorem Part.armEvent_ledger (p : Part) (n : SlotNo) (e : EventRecord) : (p.armEvent n e).1.ledger = p.ledger := by
  unfold Part.armEvent
  dsimp only
  split <;> rfl

@[simp] theorem Part.armSlot_ledger (p : Part) (n : SlotNo) : (p.armSlot n).1.ledger = p.ledger := by
  unfold Part.armSlot
  split <;> simp

@[simp] theorem cursorArrives_ledger (fuel : Nat) : ∀ (m : Nat) (p : Part), (cursorArrives fuel m p).ledger = p.ledger := by
  induction fuel with
  | zero => intro m p; simp [cursorArrives]
  | succ fuel ih =>
    intro m p
    unfold cursorArrives
    split
    · simp
    · rename_i k _
      split
      · exact ih _ _
      · simp
      · have armed := p.armSlot_ledger k
        split
        rename_i q a hq
        rw [hq] at armed
        split <;> simpa using armed

@[simp] theorem Part.moveOn_ledger (p : Part) (n : SlotNo) : (p.moveOn n).ledger = p.ledger := by
  unfold Part.moveOn
  split <;> simp

@[simp] theorem Part.endPostroll_ledger (p : Part) : p.endPostroll.ledger = p.ledger := by
  unfold Part.endPostroll
  split <;> simp

@[simp] theorem Part.enterPostroll_ledger (p : Part) : p.enterPostroll.ledger = p.ledger := by
  unfold Part.enterPostroll
  dsimp only
  (repeat' split) <;> simp

@[simp] theorem Part.enterRoll_ledger (p : Part) : p.enterRoll.ledger = p.ledger := by
  unfold Part.enterRoll
  split <;> rfl

@[simp] theorem Part.rollPlay_ledger (p : Part) (d : DeckNo) : (p.rollPlay d).ledger = p.ledger := by
  unfold Part.rollPlay
  (repeat' split) <;> simp

@[simp] theorem Part.enterHold_ledger (p : Part) : p.enterHold.ledger = p.ledger := by
  unfold Part.enterHold
  split <;> simp

@[simp] theorem Part.leaveCue_ledger (p : Part) : p.leaveCue.ledger = p.ledger := by
  unfold Part.leaveCue
  (repeat' split) <;> simp

@[simp] theorem Part.leaveHold_ledger (p : Part) : p.leaveHold.ledger = p.ledger := by
  unfold Part.leaveHold
  split <;> simp

@[simp] theorem Part.takeRelease_ledger (p : Part) : p.takeRelease.ledger = p.ledger := by
  simp [Part.takeRelease]

@[simp] theorem Part.judgeCue_ledger (p : Part) (d : DeckNo) (point : Nat) (c : CueRecord) :
    (p.judgeCue d point c).ledger = p.ledger := by
  unfold Part.judgeCue
  dsimp only
  (repeat' split) <;> simp

@[simp] theorem Part.cueReport_ledger (p : Part) (d : DeckNo) (fr : Frame) (refused : Bool) :
    (p.cueReport d fr refused).ledger = p.ledger := by
  unfold Part.cueReport
  (repeat' split) <;> simp

@[simp] theorem Part.judgeCueTimer_ledger (p : Part) (d : DeckNo) : (p.judgeCueTimer d).ledger = p.ledger := by
  unfold Part.judgeCueTimer
  split <;> simp

@[simp] theorem Part.tickCueTimers_ledger (p : Part) : p.tickCueTimers.ledger = p.ledger := by
  unfold Part.tickCueTimers
  split
  · rw [Part.each_keeps Part.ledger _ (fun d q => by simp)]
    simp
  · rfl

@[simp] theorem Part.decideRecordOn_ledger (p : Part) (r : DeckNo) (e : EventRecord) :
    (p.decideRecordOn r e).ledger = p.ledger := by
  unfold Part.decideRecordOn
  dsimp only
  (repeat' split) <;> simp

@[simp] theorem Part.writeTransition_ledger (p : Part) (position : Nat) (e : EventRecord) (a : ArmResults) :
    (p.writeTransition position e a).ledger = p.ledger := rfl

@[simp] theorem Part.spanPoints_ledger (p : Part) (r : DeckNo) (position : Nat) (e : EventRecord) :
    (p.spanPoints r position e).ledger = p.ledger := by
  unfold Part.spanPoints
  dsimp only
  (repeat' split) <;> simp

@[simp] theorem Part.recorderAdvanced_ledger (p : Part) (r : DeckNo) : (p.recorderAdvanced r).ledger = p.ledger := by
  unfold Part.recorderAdvanced
  dsimp only
  (repeat' split) <;> simp

@[simp] theorem Part.endOpenEvent_ledger (p : Part) : p.endOpenEvent.ledger = p.ledger := by
  unfold Part.endOpenEvent
  dsimp only
  (repeat' split) <;> simp

@[simp] theorem Part.takeTrigger_ledger (p : Part) : p.takeTrigger.ledger = p.ledger := by
  unfold Part.takeTrigger
  split <;> simp

@[simp] theorem Part.recordReport_ledger (p : Part) (d : DeckNo) (fr : Frame) (refused : Bool) (label : RawLabel) :
    (p.recordReport d fr refused label).ledger = p.ledger := by
  unfold Part.recordReport
  dsimp only
  (repeat' split) <;> simp

@[simp] theorem Part.deckReported_ledger (p : Part) (d : DeckNo) (fr : Frame) (refused : Bool) (label : RawLabel) :
    (p.deckReported d fr refused label).ledger = p.ledger := by
  simp [Part.deckReported]

@[simp] theorem Part.tickPostroll_ledger (p : Part) : p.tickPostroll.ledger = p.ledger := by
  unfold Part.tickPostroll
  dsimp only
  (repeat' split) <;> simp

@[simp] theorem Part.lineChanged_ledger (p : Part) (d : DeckNo) : (p.lineChanged d).ledger = p.ledger := by
  unfold Part.lineChanged
  (repeat' split) <;> simp

@[simp] theorem Part.chaseLost_ledger (p : Part) (r : Reason) : (p.chaseLost r).ledger = p.ledger := by
  unfold Part.chaseLost
  split <;> simp

@[simp] theorem Part.syncLost_ledger (p : Part) : p.syncLost.ledger = p.ledger := by
  unfold Part.syncLost
  split <;> simp

@[simp] theorem Part.tripGuard_ledger (p : Part) : p.tripGuard.ledger = p.ledger := by
  simp [Part.tripGuard]

@[simp] theorem Part.judgeGuard_ledger (p : Part) : p.judgeGuard.ledger = p.ledger := by
  unfold Part.judgeGuard
  split <;> simp

@[simp] theorem Part.tickGuard_ledger (p : Part) : p.tickGuard.ledger = p.ledger := by
  unfold Part.tickGuard
  split <;> simp

@[simp] theorem Part.lockLeft_ledger (p : Part) : p.lockLeft.ledger = p.ledger := by
  unfold Part.lockLeft
  split <;> simp

@[simp] theorem Part.lockEntered_ledger (p : Part) (jump : Bool) : (p.lockEntered jump).ledger = p.ledger := by
  unfold Part.lockEntered
  dsimp only
  (repeat' split) <;> simp

@[simp] theorem Part.edsStandardChange_ledger (p : Part) : p.edsStandardChange.ledger = p.ledger := p.failEvent_ledger _

@[simp] theorem Part.edsCountingChange_ledger (p : Part) : p.edsCountingChange.ledger = p.ledger := rfl

@[simp] theorem Part.portAllStop_ledger (p : Part) (d : DeckNo) : (p.portAllStop d).ledger = p.ledger := by
  unfold Part.portAllStop
  split <;> simp

@[simp] theorem Part.allStop_ledger (p : Part) : p.allStop.ledger = p.ledger := by
  unfold Part.allStop
  rw [Part.each_keeps Part.ledger _ (fun d q => by simp)]
  simp

/-! ### Marks, chase and tape positions -/

@[simp] theorem Part.pushMark_ledger (p : Part) (m : Mark) : (p.pushMark m).ledger = p.ledger := by
  unfold Part.pushMark
  dsimp only
  split <;> simp

@[simp] theorem Part.capture_ledger (p : Part) (d : DeckNo) (g : Fin 4) : (p.capture d g).ledger = p.ledger := by
  unfold Part.capture
  split <;> simp

@[simp] theorem Part.loseChase_ledger (p : Part) (d : DeckNo) (e : Int) (r : Reason) :
    (p.loseChase d e r).ledger = p.ledger := by
  simp [Part.loseChase]

@[simp] theorem Part.computeWith_ledger (p : Part) (d r : DeckNo) : (p.computeWith d r).ledger = p.ledger := by
  unfold Part.computeWith
  dsimp only
  (repeat' split) <;> simp

@[simp] theorem Part.compute_ledger (p : Part) (d : DeckNo) : (p.compute d).ledger = p.ledger := by
  unfold Part.compute
  (repeat' split) <;> simp

@[simp] theorem Part.positionMeasured_ledger (p : Part) (d : DeckNo) : (p.positionMeasured d).ledger = p.ledger := by
  unfold Part.positionMeasured
  (repeat' split) <;> simp

@[simp] theorem Part.computeHeld_ledger (p : Part) (d : DeckNo) : (p.computeHeld d).ledger = p.ledger := by
  unfold Part.computeHeld
  dsimp only
  (repeat' split) <;> simp

@[simp] theorem Part.loseStale_ledger (p : Part) (d : DeckNo) : (p.loseStale d).ledger = p.ledger := by
  unfold Part.loseStale
  split <;> simp

@[simp] theorem Part.positionStale_ledger (p : Part) (d : DeckNo) : (p.positionStale d).ledger = p.ledger := by
  unfold Part.positionStale
  split
  · exact Part.each_keeps Part.ledger _ (fun d q => by simp) _ _
  · simp

@[simp] theorem Part.judgeStale_ledger (p : Part) (d : DeckNo) : (p.judgeStale d).ledger = p.ledger := by
  unfold Part.judgeStale
  split <;> simp

@[simp] theorem Part.advanceRecord_ledger (p : Part) (d : DeckNo) : (p.advanceRecord d).ledger = p.ledger := by
  simp [Part.advanceRecord]

@[simp] theorem Part.signalAdvance_ledger (p : Part) (d : DeckNo) : (p.signalAdvance d).ledger = p.ledger := by
  unfold Part.signalAdvance
  split <;> simp

@[simp] theorem Part.useVitc_ledger (p : Part) (d : DeckNo) (x f : Nat) : (p.useVitc d x f).ledger = p.ledger := by
  unfold Part.useVitc
  dsimp only
  split <;> simp

@[simp] theorem Part.vitcMeasurement_ledger (p : Part) (d : DeckNo) (x : Reading) :
    (p.vitcMeasurement d x).ledger = p.ledger := by
  unfold Part.vitcMeasurement
  split <;> simp

@[simp] theorem Part.useDeckReply_ledger (p : Part) (d : DeckNo) (x f : Nat) (src : TcSource) :
    (p.useDeckReply d x f src).ledger = p.ledger := by
  unfold Part.useDeckReply
  dsimp only
  split <;> simp

@[simp] theorem Part.deckMeasurement_ledger (p : Part) (d : DeckNo) (l : RawLabel) (src : TcSource) (f : Nat) :
    (p.deckMeasurement d l src f).ledger = p.ledger := by
  unfold Part.deckMeasurement
  (repeat' split) <;> simp

@[simp] theorem Part.countingChanged_ledger (p : Part) : p.countingChanged.ledger = p.ledger := by
  refine Prod.ext rfl (Table.ext_get fun d => ?_)
  show ((p.decks.map Deck.countingChanged).map Deck.timeouts).get d = (p.decks.map Deck.timeouts).get d
  simp only [Table.get_map]
  rfl

@[simp] theorem Part.standardChangeEvent_ledger (p : Part) : p.standardChangeEvent.ledger = p.ledger := by
  simp [Part.standardChangeEvent]

/-! ### The work of a field start -/

@[simp] theorem FieldCtx.handEdge_ledger (x : FieldCtx) (g : Gpi) (n : Fin 4) :
    (x.handEdge g n).part.ledger = x.part.ledger := by
  unfold FieldCtx.handEdge
  (repeat' split) <;> simp

@[simp] theorem FieldCtx.judgeEdge_ledger (x : FieldCtx) (n : Fin 4) : (x.judgeEdge n).part.ledger = x.part.ledger := by
  unfold FieldCtx.judgeEdge
  dsimp only
  (repeat' split) <;> simp

@[simp] theorem FieldCtx.releaseHeld_ledger (x : FieldCtx) (d : DeckNo) : (x.releaseHeld d).part.ledger = x.part.ledger := by
  unfold FieldCtx.releaseHeld
  dsimp only
  generalize x.part = p
  induction x.held.filter (fun h => h.1 == d) generalizing p with
  | nil => rfl
  | cons h hs ih => exact (ih _).trans (p.capture_ledger _ _)

@[simp] theorem FieldCtx.react_ledger (x : FieldCtx) (d : DeckNo) (r : Reaction) :
    (x.react d r).part.ledger = x.part.ledger := by
  cases r with
  | sequencer => exact x.part.signalAdvance_ledger d
  | captures => exact x.releaseHeld_ledger d
  | chase e =>
    simp only [FieldCtx.react, FieldCtx.computeReady]
    split
    · exact x.part.computeHeld_ledger e
    · rfl

@[simp] theorem FieldCtx.work_ledger (began : Phase) (x : FieldCtx) (w : FieldWork) :
    (x.work began w).part.ledger = x.part.ledger := by
  cases w with
  | advance d first =>
    have reacts (rs : List Reaction) (y : FieldCtx) :
        (rs.foldl (fun y r => y.react d r) y).part.ledger = y.part.ledger := by
      induction rs generalizing y with
      | nil => rfl
      | cons r rs ih => exact (ih _).trans (y.react_ledger d r)
    exact (reacts _ _).trans (x.part.advanceRecord_ledger d)
  | cueTimers =>
    simp only [FieldCtx.work]
    split <;> simp
  | rollPlays =>
    simp only [FieldCtx.work]
    exact Part.each_keeps Part.ledger _ (fun d q => by simp) _ _
  | postroll =>
    simp only [FieldCtx.work]
    split <;> simp
  | guard => simp [FieldCtx.work]
  | autoTake => rfl
  | gpi n => simp [FieldCtx.work]

/-- The work of a field start leaves the ledger alone. -/
@[simp] theorem Part.fieldWork_ledger (p : Part) (asked : List FieldWork) : (p.fieldWork asked).ledger = p.ledger := by
  suffices folds : ∀ (ws : List FieldWork) (x : FieldCtx),
      (ws.foldl (FieldCtx.work p.eds.phase) x).part.ledger = x.part.ledger from folds _ _
  intro ws
  induction ws with
  | nil => intro x; rfl
  | cons w ws ih => intro x; exact (ih _).trans (x.work_ledger _ w)

end Sys2Proof.Machine
end

section
/-! ## The counts (O12, O13)

What every command other than a field start and a reset keeps: field count and identity, and that the counts of the RTU, the
consoles, the decks and the packet unit are in range. -/

namespace Sys2Proof.Machine

open Sys2Proof

/-- The counts of the RTU in their ranges, and a candidate exactly in ACQUIRE. -/
structure Rtu.Sound (r : Rtu) : Prop where
  count : r.fieldCount < Config.countModulus
  run : r.run ≤ 3
  miss : r.miss ≤ 1
  candidate : (r.lock == .acquire) = r.candidate.isSome

theorem Part.referenceSound_iff (p : Part) : p.referenceSound = true ↔ p.rtu.Sound := by
  simp only [Part.referenceSound, Bool.and_eq_true, decide_eq_true_eq, beq_iff_eq]
  exact ⟨fun ⟨⟨⟨count, run⟩, miss⟩, candidate⟩ => ⟨count, run, miss, candidate⟩,
    fun ⟨count, run, miss, candidate⟩ => ⟨⟨⟨count, run⟩, miss⟩, candidate⟩⟩

/-- A debounce of 1 to 8, and a run count below it. -/
def Gpi.Sound (g : Gpi) : Prop := 1 ≤ g.debounce ∧ g.debounce ≤ 8 ∧ g.run < g.debounce

theorem Part.consoleSound_iff (p : Part) : p.consoleSound = true ↔ ∀ n : Fin 4, (p.gtu.gpis.get n).Sound := by
  simp only [Part.consoleSound, List.all_eq_true, decide_eq_true_eq]
  constructor
  · intro sound n
    exact sound _ (List.getElem_mem _)
  · intro sound g mem
    obtain ⟨n, bound, rfl⟩ := List.getElem_of_mem mem
    exact sound ⟨n, p.gtu.gpis.size_eq ▸ bound⟩

theorem Part.countersSound_iff (p : Part) :
    p.countersSound = true ↔ (∀ d : DeckNo, (p.deck d).timeouts ≤ 8) ∧ p.pku.errors ≤ 255 := by
  have all_decks (P : DeckNo → Prop) : (∀ d ∈ allDecks, P d) ↔ ∀ d, P d :=
    ⟨fun h d => h d (by fin_cases d <;> decide), fun h d _ => h d⟩
  simp only [Part.countersSound, Bool.and_eq_true, List.all_eq_true, decide_eq_true_eq]
  exact and_congr (all_decks _) Iff.rfl

/-- From `p` to `q` the field count and identity are the same, and counts in range stay in range. -/
structure Part.KeepsCounts (p q : Part) : Prop where
  fieldCount : q.rtu.fieldCount = p.rtu.fieldCount
  fieldId : q.rtu.fieldId = p.rtu.fieldId
  reference : p.rtu.Sound → q.rtu.Sound
  console : (∀ n, (p.gtu.gpis.get n).Sound) → ∀ n, (q.gtu.gpis.get n).Sound
  timeouts : (∀ d, (p.deck d).timeouts ≤ 8) → ∀ d, (q.deck d).timeouts ≤ 8
  errors : p.pku.errors ≤ 255 → q.pku.errors ≤ 255

/-! ### Rules -/

namespace Part.KeepsCounts

theorem refl (p : Part) : p.KeepsCounts p := ⟨rfl, rfl, id, id, id, id⟩

theorem trans {p q r : Part} (h : p.KeepsCounts q) (k : q.KeepsCounts r) : p.KeepsCounts r where
  fieldCount := k.fieldCount.trans h.fieldCount
  fieldId := k.fieldId.trans h.fieldId
  reference := k.reference ∘ h.reference
  console := k.console ∘ h.console
  timeouts := k.timeouts ∘ h.timeouts
  errors := k.errors ∘ h.errors

/-- What keeps the RTU, the console and the ledger keeps the counts. -/
theorem of_ledger {p q : Part} (rtu : q.rtu = p.rtu) (gtu : q.gtu = p.gtu) (ledger : q.ledger = p.ledger) :
    p.KeepsCounts q where
  fieldCount := by rw [rtu]
  fieldId := by rw [rtu]
  reference := by rw [rtu]; exact id
  console := by rw [gtu]; exact id
  timeouts := by intro h d; rw [Part.timeouts_of_ledger ledger]; exact h d
  errors := by rw [Part.errors_of_ledger ledger]; exact id

theorem of_aside {p q : Part} (aside : q.aside = p.aside) (ledger : q.ledger = p.ledger) : p.KeepsCounts q :=
  of_ledger (Part.rtu_of_aside aside) (Part.gtu_of_aside aside) ledger

theorem modRtu (p : Part) (f : Rtu → Rtu) (count : (f p.rtu).fieldCount = p.rtu.fieldCount)
    (id_eq : (f p.rtu).fieldId = p.rtu.fieldId) (sound : p.rtu.Sound → (f p.rtu).Sound) : p.KeepsCounts (p.modRtu f) :=
  ⟨count, id_eq, sound, id, id, id⟩

theorem modPku (p : Part) (f : Pku → Pku) (errors : p.pku.errors ≤ 255 → (f p.pku).errors ≤ 255) :
    p.KeepsCounts (p.modPku f) :=
  ⟨rfl, rfl, id, id, id, errors⟩

theorem modGtu (p : Part) (f : Gtu → Gtu)
    (console : (∀ n, (p.gtu.gpis.get n).Sound) → ∀ n, ((f p.gtu).gpis.get n).Sound) : p.KeepsCounts (p.modGtu f) :=
  ⟨rfl, rfl, id, console, id, id⟩

theorem modDeck (p : Part) (d : DeckNo) (f : Deck → Deck) (bound : ∀ k : Deck, k.timeouts ≤ 8 → (f k).timeouts ≤ 8) :
    p.KeepsCounts (p.modDeck d f) where
  fieldCount := rfl
  fieldId := rfl
  reference := id
  console := id
  errors := id
  timeouts := by
    intro h e
    by_cases same : e = d
    · subst same
      rw [Part.modDeck_deck_self]
      exact bound _ (h e)
    · rw [Part.modDeck_deck_ne _ _ same]
      exact h e

theorem modDeck_timeouts (p : Part) (d : DeckNo) (f : Deck → Deck) (kept : ∀ k : Deck, (f k).timeouts = k.timeouts) :
    p.KeepsCounts (p.modDeck d f) :=
  modDeck p d f (fun k h => (kept k).symm ▸ h)

theorem ite {p q r : Part} {c : Prop} [Decidable c] (h : p.KeepsCounts q) (k : p.KeepsCounts r) :
    p.KeepsCounts (if c then q else r) := by
  split
  · exact h
  · exact k

theorem reply (p : Part) (k o : Nat) (a : Answer) : p.KeepsCounts (p.reply k o a) := ⟨rfl, rfl, id, id, id, id⟩

theorem raise (p : Part) (n : Notice) : p.KeepsCounts (p.raise n) := of_aside rfl rfl

theorem modPort (p : Part) (d : DeckNo) (f : Port → Port) : p.KeepsCounts (p.modPort d f) := of_aside rfl rfl

theorem modSiu (p : Part) (i : Input) (f : Siu → Siu) : p.KeepsCounts (p.modSiu i f) := of_ledger rfl rfl rfl

end Part.KeepsCounts

/-! ### The RTU (R6 to R13) -/

/-- ACQUIRE begins with a run of one. -/
theorem Rtu.Sound.acquiring {r : Rtu} (h : r.Sound) (std : Standard) :
    Rtu.Sound { r with lock := .acquire, candidate := some std, run := 1, miss := 0 } :=
  ⟨h.count, by simp, Nat.zero_le _, rfl⟩

theorem Part.arrivingAt_keepsCounts (p : Part) (time : Nat) : p.KeepsCounts (p.arrivingAt time) :=
  .modRtu _ _ rfl rfl fun ⟨count, run, miss, candidate⟩ => ⟨count, run, miss, candidate⟩

theorem Part.refReference_keepsCounts (p : Part) (f : FieldId) : p.KeepsCounts (p.refReference f) :=
  .modRtu _ _ rfl rfl fun ⟨count, run, miss, candidate⟩ => ⟨count, run, miss, candidate⟩

theorem Part.standardChangeEvent_keepsCounts (p : Part) : p.KeepsCounts p.standardChangeEvent :=
  .of_aside p.standardChangeEvent_aside p.standardChangeEvent_ledger

/-- The loss of REF in a lock state that has no candidate. -/
theorem Part.enterFreewheel_keepsCounts (p : Part) (lock : p.rtu.lock ≠ .acquire) : p.KeepsCounts p.enterFreewheel :=
  (KeepsCounts.modRtu p (fun r => { r with lock := .freewheel, run := 0, miss := 0 }) rfl rfl fun h =>
    ⟨h.count, Nat.zero_le _, Nat.zero_le _, by rw [← h.candidate]; simp [lock]⟩).trans
    ((KeepsCounts.raise _ _).trans (.of_aside (Part.lockLeft_aside _) (Part.lockLeft_ledger _)))

theorem Part.countMiss_keepsCounts (p : Part) (lock : p.rtu.lock ≠ .acquire) : p.KeepsCounts p.countMiss := by
  unfold Part.countMiss
  split
  · next first =>
    exact .modRtu _ _ rfl rfl fun h => ⟨h.count, h.run, Nat.le_of_lt_succ first, h.candidate⟩
  · exact p.enterFreewheel_keepsCounts lock

theorem Part.detectStandard_keepsCounts (p : Part) (std : Standard) : p.KeepsCounts (p.detectStandard std) := by
  have detected : p.KeepsCounts (p.standardDetected std) :=
    (KeepsCounts.modRtu p _ rfl rfl fun h => h.acquiring std).trans (.raise _ _)
  refine detected.trans (.trans (.ite ?_ (.refl _)) (Part.standardChangeEvent_keepsCounts _))
  exact .of_aside (Part.lockLeft_aside _) (Part.lockLeft_ledger _)

theorem Part.takeStandard_keepsCounts (p : Part) (std : Standard) : p.KeepsCounts (p.takeStandard std) := by
  have placed : p.KeepsCounts (p.modRtu fun r => { r with std := std }) :=
    .modRtu _ _ rfl rfl fun ⟨count, run, miss, candidate⟩ => ⟨count, run, miss, candidate⟩
  have told : (p.modRtu fun r => { r with std := std }).KeepsCounts
      { (p.modRtu fun r => { r with std := std }).raise .standardChange with sius := p.sius.map Siu.standardTaken } :=
    .of_ledger rfl rfl rfl
  exact (placed.trans told).trans (Part.standardChangeEvent_keepsCounts _)

theorem Part.handLocked_keepsCounts (p : Part) (jump : Bool) : p.KeepsCounts (p.handLocked jump) :=
  .of_aside (by simp [Part.handLocked]) (by simp [Part.handLocked])

theorem Part.countOpened_keepsCounts (p : Part) : p.KeepsCounts p.countOpened :=
  .ite (.modPku _ _ id) (.refl _)

theorem Part.enterLocked_keepsCounts (p : Part) (std : Standard) (f : FieldId) : p.KeepsCounts (p.enterLocked std f) := by
  refine (KeepsCounts.modRtu p (fun r => { r with lock := .locked, run := 0, miss := 0, candidate := none }) rfl rfl
    fun h => ⟨h.count, Nat.zero_le _, Nat.zero_le _, rfl⟩).trans ?_
  refine .trans (.ite (Part.takeStandard_keepsCounts _ std) (.refl _))
    (.trans (.ite (.trans (.modRtu _ _ rfl rfl ?_) (.raise _ _)) (.refl _))
      ((Part.countOpened_keepsCounts _).trans (Part.handLocked_keepsCounts _ _)))
  exact fun ⟨count, run, miss, candidate⟩ => ⟨count, run, miss, candidate⟩

theorem Part.judgeGood_keepsCounts (p : Part) (std : Standard) (f : FieldId) : p.KeepsCounts (p.judgeGood std f) := by
  unfold Part.judgeGood
  split
  · exact .modRtu _ _ rfl rfl fun h => h.acquiring std
  · next acquire =>
    split
    · exact .modRtu _ _ rfl rfl fun h => ⟨h.count, by simp, Nat.zero_le _, by simp [acquire]⟩
    · split
      · next short => exact .modRtu _ _ rfl rfl fun h => ⟨h.count, Nat.le_of_lt_succ short, Nat.zero_le _, h.candidate⟩
      · exact p.enterLocked_keepsCounts std f
  · next locked =>
    refine .ite (p.detectStandard_keepsCounts std) (.ite (.modRtu _ _ rfl rfl ?_) (p.countMiss_keepsCounts ?_))
    · exact fun h => ⟨h.count, h.run, Nat.zero_le _, h.candidate⟩
    · simp [locked]
  · refine .ite (p.detectStandard_keepsCounts std) ?_
    split
    · next short => exact .modRtu _ _ rfl rfl fun h => ⟨h.count, Nat.le_of_lt_succ short, h.miss, h.candidate⟩
    · exact p.enterLocked_keepsCounts std f

theorem Part.judgeBad_keepsCounts (p : Part) : p.KeepsCounts p.judgeBad := by
  unfold Part.judgeBad
  split
  · exact .refl p
  · split
    · next first =>
      exact .modRtu _ _ rfl rfl fun h => ⟨h.count, Nat.zero_le _, Nat.le_of_lt_succ first, h.candidate⟩
    · exact .modRtu _ _ rfl rfl fun h => ⟨h.count, Nat.zero_le _, Nat.zero_le _, rfl⟩
  · next locked => exact p.countMiss_keepsCounts (by simp [locked])
  · exact .modRtu _ _ rfl rfl fun h => ⟨h.count, Nat.zero_le _, h.miss, h.candidate⟩

theorem Part.refBad_keepsCounts (p : Part) : p.KeepsCounts p.refBad :=
  (KeepsCounts.modRtu _ _ rfl rfl fun ⟨count, run, miss, candidate⟩ => ⟨count, run, miss, candidate⟩).trans
    (Part.judgeBad_keepsCounts _)

theorem Part.refClosed_keepsCounts (p : Part) (obs : FieldObs) : p.KeepsCounts (p.refClosed obs) := by
  unfold Part.refClosed
  split
  · exact p.refReference_keepsCounts _
  · split
    · exact (p.refReference_keepsCounts _).trans (Part.judgeGood_keepsCounts _ _ _)
    · exact (p.refReference_keepsCounts _).trans (Part.judgeBad_keepsCounts _)

/-! ### The console (R173 to R175) -/

theorem Gpi.Sound.accept {g : Gpi} (h : g.Sound) : g.accept.Sound := ⟨h.1, h.2.1, h.1⟩

theorem Gpi.sound_set {t : Table Gpi 4} (h : ∀ n, (t.get n).Sound) (n : Fin 4) {g : Gpi} (sound : g.Sound) (m : Fin 4) :
    ((t.set n g).get m).Sound := by
  by_cases same : m = n
  · subst same
    rw [Table.get_set_self]
    exact sound
  · rw [Table.get_set_ne _ _ same]
    exact h m

theorem FieldCtx.handEdge_aside (x : FieldCtx) (g : Gpi) (n : Fin 4) : (x.handEdge g n).part.aside = x.part.aside := by
  unfold FieldCtx.handEdge
  (repeat' split) <;> simp

/-- An edge that is due is accepted, and what it is handed on to leaves the inputs alone. -/
theorem FieldCtx.judgeEdge_gpis (x : FieldCtx) (n : Fin 4) :
    (x.judgeEdge n).part.gtu.gpis =
      if (x.part.gtu.gpis.get n).edgeDue then x.part.gtu.gpis.set n (x.part.gtu.gpis.get n).accept
      else x.part.gtu.gpis := by
  unfold FieldCtx.judgeEdge
  dsimp only
  split
  · split
    · exact congrArg Gtu.gpis (Part.gtu_of_aside (FieldCtx.handEdge_aside _ _ _))
    · rfl
  · rfl

theorem FieldCtx.judgeEdge_keepsCounts (x : FieldCtx) (n : Fin 4) : x.part.KeepsCounts (x.judgeEdge n).part where
  fieldCount := by rw [FieldCtx.judgeEdge_rtu]
  fieldId := by rw [FieldCtx.judgeEdge_rtu]
  reference := by rw [FieldCtx.judgeEdge_rtu]; exact id
  timeouts := by
    intro h d
    rw [Part.timeouts_of_ledger (x.judgeEdge_ledger n)]
    exact h d
  errors := by rw [Part.errors_of_ledger (x.judgeEdge_ledger n)]; exact id
  console := by
    intro h
    rw [FieldCtx.judgeEdge_gpis]
    split
    · exact Gpi.sound_set h n (h n).accept
    · exact h

end Sys2Proof.Machine
end

section
/-! ## What the commands keep (O12, O13)

Command by command, in the order of the dispatch: no command but a field start or a reset moves the field count or the
identity, and none takes a count out of its range. -/

namespace Sys2Proof.Machine

open Sys2Proof

/-! ### Inputs (chapter 3) -/

theorem Part.inputNotice_keepsCounts (p : Part) (x y : SiuState) : p.KeepsCounts (p.inputNotice x y) := by
  unfold Part.inputNotice
  split
  · exact .refl p
  · split
    · exact .raise _ _
    · exact .raise _ _
    · exact .refl p

theorem Part.deliver_keepsCounts (p : Part) (i : Input) (x : Reading) : p.KeepsCounts (p.deliver i x) := by
  unfold Part.deliver
  split
  · exact .of_aside (Part.vitcMeasurement_aside _ _ _) (Part.vitcMeasurement_ledger _ _ _)
  · exact .refl p

theorem Part.deliverAtEntry_keepsCounts (p : Part) (i : Input) (x : SiuState) : p.KeepsCounts (p.deliverAtEntry i x) := by
  unfold Part.deliverAtEntry
  split
  · exact .ite (.refl p) (p.deliver_keepsCounts _ _)
  · exact .refl p

theorem Part.inputGood_keepsCounts (p : Part) (i : Input) : p.KeepsCounts (p.inputGood i) :=
  (KeepsCounts.modSiu p i _).trans
    ((Part.inputNotice_keepsCounts _ _ _).trans (Part.deliverAtEntry_keepsCounts _ _ _))

theorem Part.inputBad_keepsCounts (p : Part) (i : Input) (judge : Siu → Siu) : p.KeepsCounts (p.inputBad i judge) :=
  (KeepsCounts.modSiu p i judge).trans (Part.inputNotice_keepsCounts _ _ _)

theorem Part.slip_keepsCounts (p : Part) (i : Input) (field line : Nat) : p.KeepsCounts (p.slip i field line) :=
  .ite ((KeepsCounts.modSiu p i _).trans ((KeepsCounts.modSiu _ i _).trans (.raise _ _))) (.modSiu p i _)

theorem Part.formReading_keepsCounts (p : Part) (i : Input) (x y : VitcLine) : p.KeepsCounts (p.formReading i x y) := by
  unfold Part.formReading
  extract_lets s reading q
  have formed : p.KeepsCounts q := .modSiu p i _
  split
  · exact formed.trans (q.deliver_keepsCounts _ _)
  · exact formed

/-! ### Timecode and decks (chapters 4 to 6) -/

theorem Part.each_keepsCounts (p : Part) (ds : List DeckNo) (f : DeckNo → Part → Part)
    (kept : ∀ d (q : Part), q.KeepsCounts (f d q)) : p.KeepsCounts (p.each ds f) := by
  unfold Part.each
  induction ds generalizing p with
  | nil => exact .refl p
  | cons d ds ih => exact (kept d p).trans (ih _)

theorem Part.configureTimecode_keepsCounts (p : Part) (df : Bool) (f : DeckNo → Preference) :
    p.KeepsCounts (p.configureTimecode df f) := by
  have stored : p.KeepsCounts (p.setPreferences f) :=
    p.each_keepsCounts _ _ fun d q => .modDeck_timeouts q d _ fun _ => rfl
  refine .ite stored (stored.trans ?_)
  exact .of_aside (by simp [Part.changeDfMode]) (by simp [Part.changeDfMode])

theorem Part.assignDeck_keepsCounts (p : Part) (d : DeckNo) (role : Role) (input : Option Input) :
    p.KeepsCounts (p.assignDeck d role input).1 := by
  unfold Part.assignDeck
  extract_lets old recorder q r
  have assigned : p.KeepsCounts q := .modDeck_timeouts p d _ fun _ => rfl
  have ready : p.KeepsCounts r := assigned.trans (.ite (.modPort _ _ _) (.refl q))
  exact ready.trans (.of_aside rfl rfl)

theorem Part.askAssign_keepsCounts (p : Part) (d : DeckNo) (role : Role) (input : Option Input) :
    p.KeepsCounts (p.askAssign d role input).1 := by
  unfold Part.askAssign
  split
  · exact .refl p
  · split
    · exact .refl p
    · split
      · exact .refl p
      · exact p.assignDeck_keepsCounts d role input

theorem Deck.sentWith_timeouts (k : Deck) (f : Frame) : (k.sentWith f).timeouts = k.timeouts := by
  cases f <;> rfl

theorem Part.sendItem_keepsCounts (p : Part) (d : DeckNo) (i : Item) : p.KeepsCounts (p.sendItem d i) := by
  refine (KeepsCounts.modDeck_timeouts p d _ fun k => ?_).trans (.modPort _ _ _)
  cases i <;> exact k.sentWith_timeouts _

theorem Part.arbitrate_keepsCounts (p : Part) (d : DeckNo) : p.KeepsCounts (p.arbitrate d) := by
  unfold Part.arbitrate
  split
  · exact .refl p
  · split
    · exact p.sendItem_keepsCounts _ _
    · exact .refl p

theorem Part.timeoutNotices_keepsCounts (p : Part) (x y : LineState) : p.KeepsCounts (p.timeoutNotices x y) :=
  .ite (.refl p) (.ite (.trans (.raise _ _) (.raise _ _)) (.raise _ _))

theorem Part.lineChanged_keepsCounts (p : Part) (d : DeckNo) : p.KeepsCounts (p.lineChanged d) :=
  .of_aside (p.lineChanged_aside d) (p.lineChanged_ledger d)

/-- A timeout is counted up to the eighth. -/
theorem Part.timeout_keepsCounts (p : Part) (d : DeckNo) : p.KeepsCounts (p.timeout d) := by
  unfold Part.timeout
  extract_lets before q after r
  have counted : p.KeepsCounts q := by
    refine (KeepsCounts.modPort p d _).trans (.modDeck _ d _ fun k _ => ?_)
    split
    · exact Nat.min_le_left _ _
    · exact Nat.min_le_left _ _
  have told : p.KeepsCounts r := counted.trans (q.timeoutNotices_keepsCounts _ _)
  exact .ite (.ite told (told.trans (r.lineChanged_keepsCounts d))) (told.trans (.modPort _ _ _))

theorem Part.judgeDeadline_keepsCounts (p : Part) (d : DeckNo) : p.KeepsCounts (p.judgeDeadline d) :=
  .ite (p.timeout_keepsCounts d) (.refl p)

theorem Part.atSlotLine_keepsCounts (p : Part) (d : DeckNo) : p.KeepsCounts (p.atSlotLine d) :=
  (p.judgeDeadline_keepsCounts d).trans ((KeepsCounts.modPort _ d _).trans (Part.arbitrate_keepsCounts _ d))

theorem Deck.putBack_timeouts (k : Deck) (f : Frame) : (k.putBack f).timeouts = k.timeouts := by
  cases f <;> rfl

theorem Deck.replied_timeouts (k : Deck) (f : Frame) (r : DeckReply) : (k.replied f r).timeouts = 0 := by
  unfold Deck.replied
  extract_lets x
  split
  · exact x.putBack_timeouts f
  · rfl

theorem Part.replyNotices_keepsCounts (p : Part) (x : LineState) (r : DeckReply) : p.KeepsCounts (p.replyNotices x r) := by
  unfold Part.replyNotices
  extract_lets q
  have told : p.KeepsCounts q := .ite (.raise _ _) (.refl p)
  exact .ite (told.trans (.raise _ _)) told

/-- A good reply clears the timeouts of its deck. -/
theorem Part.goodReply_keepsCounts (p : Part) (d : DeckNo) (x : Flight) (r : DeckReply) :
    p.KeepsCounts (p.goodReply d x r) := by
  unfold Part.goodReply
  extract_lets before q s
  have replied : p.KeepsCounts q := by
    refine (KeepsCounts.modPort p d _).trans ((KeepsCounts.modDeck _ d _ fun k _ => ?_).trans
      ((Part.replyNotices_keepsCounts _ _ _).trans (.of_aside (Part.deckMeasurement_aside _ _ _ _ _)
        (Part.deckMeasurement_ledger _ _ _ _ _))))
    rw [k.replied_timeouts]
    exact Nat.zero_le _
  have reported : p.KeepsCounts s :=
    replied.trans (.of_aside (q.deckReported_aside _ _ _ _) (q.deckReported_ledger _ _ _ _))
  exact .ite reported (reported.trans (s.lineChanged_keepsCounts d))

/-! ### Marks, events, mixer -/

theorem Part.pushMark_keepsCounts (p : Part) (m : Mark) : p.KeepsCounts (p.pushMark m) :=
  .of_aside (p.pushMark_aside m) (p.pushMark_ledger m)

theorem Part.pushLabel_keepsCounts (p : Part) (d : DeckNo) (r : RawLabel) : p.KeepsCounts (p.pushLabel d r).1 := by
  unfold Part.pushLabel
  split
  · exact .refl p
  · exact p.pushMark_keepsCounts _

theorem Part.pushNow_keepsCounts (p : Part) (d : DeckNo) : p.KeepsCounts (p.pushNow d).1 := by
  unfold Part.pushNow
  split
  · exact p.pushMark_keepsCounts _
  · exact .refl p

theorem Part.askDirect_keepsCounts (p : Part) (d : DeckNo) (x : Direct) (b : Bool) : p.KeepsCounts (p.askDirect d x b).1 := by
  unfold Part.askDirect
  split
  · exact .refl p
  · split
    · exact .refl p
    · exact .modDeck_timeouts p d _ fun _ => rfl

theorem Part.modEds_keepsCounts (p : Part) (f : Eds → Eds) : p.KeepsCounts (p.modEds f) := .of_aside rfl rfl

theorem Part.modMep_keepsCounts (p : Part) (f : Mep → Mep) : p.KeepsCounts (p.modMep f) := .of_aside rfl rfl

theorem Part.loadEvent_keepsCounts (p : Part) (n : SlotNo) (e : EventRecord) (ts : List Tuning) :
    p.KeepsCounts (p.loadEvent n e ts).1 := by
  unfold Part.loadEvent
  split
  · exact .refl p
  · exact .of_aside rfl rfl

theorem Part.clearSlot_keepsCounts (p : Part) (n : SlotNo) : p.KeepsCounts (p.clearSlot n).1 := by
  unfold Part.clearSlot
  split
  · exact .refl p
  · exact .of_aside rfl rfl

theorem Part.armSlot_keepsCounts (p : Part) (n : SlotNo) : p.KeepsCounts (p.armSlot n).1 :=
  .of_aside (p.armSlot_aside n) (p.armSlot_ledger n)

theorem Part.startList_keepsCounts (p : Part) (n : SlotNo) : p.KeepsCounts (p.startList n) :=
  (p.modEds_keepsCounts _).trans (.of_aside (Part.startEvent_aside _ _) (Part.startEvent_ledger _ _))

theorem Part.runList_keepsCounts (p : Part) (n : SlotNo) : p.KeepsCounts (p.runList n).1 := by
  unfold Part.runList
  split
  · exact .refl p
  · split
    · exact .refl p
    · exact p.startList_keepsCounts n
    · have armed := p.armSlot_keepsCounts n
      split
      next q a slot =>
      rw [slot] at armed
      split
      · exact armed.trans (q.startList_keepsCounts n)
      · exact armed

theorem Part.hostMix_keepsCounts (p : Part) (f : Mep → Mep) (a : Answer) : p.KeepsCounts (p.hostMix f a).1 := by
  unfold Part.hostMix
  split
  · exact p.modMep_keepsCounts f
  · exact .refl p

theorem Part.askFullReset_keepsCounts (p : Part) : p.KeepsCounts p.askFullReset.1 := by
  unfold Part.askFullReset
  split
  · exact .refl p
  · exact .modPku p (fun k => { k with fullPending := true }) id

theorem Part.takeActiveSet_keepsCounts (p : Part) : p.KeepsCounts p.takeActiveSet := by
  unfold Part.takeActiveSet
  extract_lets a q
  have taken : p.KeepsCounts q := p.modMep_keepsCounts _
  split
  · exact taken.trans (.of_aside rfl rfl)
  · exact taken

end Sys2Proof.Machine
end

section
/-! ## The counts, command by command (O12, O13) -/

namespace Sys2Proof.Machine

open Sys2Proof

/-- The command leads to a state that keeps the counts. -/
def State.KeepsCounts (s : State) (o : Host.Outcome State Fault Refusal) : Prop :=
  ∀ t, o = .next t → s.part.KeepsCounts t.part

namespace State.KeepsCounts

theorem ran {s : State} {p : Part} (h : s.part.KeepsCounts p) : s.KeepsCounts (Machine.ran s p) := by
  rintro t ⟨⟩
  exact h

theorem answered {s : State} {r : Part × Answer} (k o : Nat) (h : s.part.KeepsCounts r.1) :
    s.KeepsCounts (dispatched s k o r) :=
  .ran (h.trans (.reply _ _ _ _))

theorem accepted {s : State} {p : Part} {a : Answer} (k o : Nat) (h : s.part.KeepsCounts p) :
    s.KeepsCounts (dispatched s k o (p, a)) :=
  .answered k o h

/-- A refusal changes nothing but the list of replies. -/
theorem refused (s : State) (k o : Nat) (a : Answer) : s.KeepsCounts (dispatched s k o (s.part, a)) :=
  .accepted k o (.refl _)

end State.KeepsCounts

/-! ### Packets and resets of the engine (chapter 2) -/

theorem execPacketBadFormat_keepsCounts (off kind : Nat) (s : State) : s.KeepsCounts (execPacketBadFormat off kind s) :=
  .accepted _ _ ((Part.KeepsCounts.raise _ _).trans (.modPku _ _ fun _ => Nat.min_le_left _ _))

theorem execClearNotices_keepsCounts (off mask : Nat) (s : State) : s.KeepsCounts (execClearNotices off mask s) := by
  unfold execClearNotices
  split
  · exact .refused _ _ _ _
  · refine .accepted _ _ (.modPku _ _ fun h => ?_)
    split
    · exact Nat.zero_le _
    · exact h

theorem execNoticeMask_keepsCounts (off mask : Nat) (s : State) : s.KeepsCounts (execNoticeMask off mask s) := by
  unfold execNoticeMask
  split
  · exact .refused _ _ _ _
  · next m _ => exact .accepted _ _ (.modPku _ (fun k => { k with mask := m }) id)

theorem execResetPartEngine_keepsCounts (off : Nat) (s : State) : s.KeepsCounts (execResetPartEngine off s) :=
  .accepted _ _ (.of_aside (Part.resetEngine_aside _) (Part.resetEngine_ledger _))

theorem execResetPartFull_keepsCounts (off scope : Nat) (s : State) : s.KeepsCounts (execResetPartFull off scope s) := by
  unfold execResetPartFull
  split
  · exact .answered _ _ (Part.askFullReset_keepsCounts _)
  · exact execResetPartEngine_keepsCounts off s
  · exact .refused _ _ _ _

/-! ### Inputs (chapter 3) -/

theorem execInputConfig_keepsCounts (off input a b c d : Nat) (s : State) :
    s.KeepsCounts (execInputConfig off input a b c d s) := by
  unfold execInputConfig
  dsimp only
  split
  · exact .refused _ _ _ _
  · exact .accepted _ _ (.modSiu _ _ _)

theorem execSubstPolicy_keepsCounts (off input policy : Nat) (s : State) :
    s.KeepsCounts (execSubstPolicy off input policy s) := by
  unfold execSubstPolicy
  split
  · exact .refused _ _ _ _
  · exact .refused _ _ _ _
  · split
    · exact .accepted _ _ (.modSiu _ _ _)
    · exact .refused _ _ _ _

theorem execInputFieldReference_keepsCounts (i : Input) (f : FieldId) (time : Nat) (s : State) :
    s.KeepsCounts (execInputFieldReference i f time s) :=
  .ran ((s.part.arrivingAt_keepsCounts time).trans (.modSiu _ _ _))

theorem execInputFieldWellFormed_keepsCounts (i : Input) (obs : FieldObs) (s : State) :
    s.KeepsCounts (execInputFieldWellFormed i obs s) := by
  unfold execInputFieldWellFormed
  split
  · exact .ran (.ite (s.part.inputGood_keepsCounts i) (s.part.inputBad_keepsCounts i _))
  · exact .ran (.refl _)

theorem execStoreSlip_keepsCounts (i : Input) (line : Nat) (s : State) : s.KeepsCounts (execStoreSlip i line s) := by
  unfold execStoreSlip
  split
  · exact .ran (.ite (s.part.slip_keepsCounts _ _ _) (.refl _))
  · exact .ran (.refl _)

/-! ### Timecode and marks (chapter 4) -/

theorem execTcConfig_keepsCounts (off df a b c d : Nat) (s : State) : s.KeepsCounts (execTcConfig off df a b c d s) := by
  unfold execTcConfig
  split
  · split
    · exact .refused _ _ _ _
    · exact .accepted _ _ (s.part.configureTimecode_keepsCounts _ _)
  · exact .refused _ _ _ _

theorem execMarkPush_keepsCounts (off deck : Nat) (x : LabelChoice) (s : State) :
    s.KeepsCounts (execMarkPush off deck x s) := by
  unfold execMarkPush
  split
  · exact .refused _ _ _ _
  · split
    · exact .answered _ _ (s.part.pushLabel_keepsCounts _ _)
    · exact .answered _ _ (s.part.pushNow_keepsCounts _)
    · exact .refused _ _ _ _

theorem execMarkPop_keepsCounts (off : Nat) (s : State) : s.KeepsCounts (execMarkPop off s) := by
  unfold execMarkPop
  split
  · exact .refused _ _ _ _
  · exact .accepted _ _ (.of_aside rfl rfl)

/-! ### Decks and deck lines (chapters 5 and 6) -/

theorem execDeckAssign_keepsCounts (off deck role input : Nat) (s : State) :
    s.KeepsCounts (execDeckAssign off deck role input s) := by
  unfold execDeckAssign
  split
  · exact .answered _ _ (s.part.askAssign_keepsCounts _ _ _)
  · exact .refused _ _ _ _

theorem execDeckParams_keepsCounts (off deck a b c d e f : Nat) (s : State) :
    s.KeepsCounts (execDeckParams off deck a b c d e f s) := by
  unfold execDeckParams
  dsimp only
  split
  · exact .refused _ _ _ _
  · split
    · exact .refused _ _ _ _
    · exact .accepted _ _ (.modDeck_timeouts _ _ _ fun _ => rfl)

theorem execDeckRead_keepsCounts (off deck : Nat) (s : State) : s.KeepsCounts (execDeckRead off deck s) := by
  unfold execDeckRead
  split
  · exact .refused _ _ _ _
  · exact .refused _ _ _ _

theorem execDeckDirect_keepsCounts (off deck command : Nat) (v : Int) (l : RawLabel) (s : State) :
    s.KeepsCounts (execDeckDirect off deck command v l s) := by
  unfold execDeckDirect
  split
  · exact .answered _ _ (s.part.askDirect_keepsCounts _ _ _)
  · exact .refused _ _ _ _

theorem execDeckReplyGood_keepsCounts (d : DeckNo) (r : DeckReply) (s : State) :
    s.KeepsCounts (execDeckReplyGood d r s) := by
  unfold execDeckReplyGood
  split
  · exact .ran (s.part.goodReply_keepsCounts _ _ _)
  · exact .ran (.refl _)

theorem execDeckReplyBad_keepsCounts (d : DeckNo) (s : State) : s.KeepsCounts (execDeckReplyBad d s) := by
  unfold execDeckReplyBad
  split
  · exact .ran (s.part.timeout_keepsCounts _)
  · exact .ran (.refl _)

/-! ### Chase and events (chapters 7 to 9) -/

theorem execChaseParams_keepsCounts (off a b c d e f : Nat) (s : State) :
    s.KeepsCounts (execChaseParams off a b c d e f s) := by
  unfold execChaseParams
  dsimp only
  split
  · exact .refused _ _ _ _
  · exact .accepted _ _ (.of_aside rfl rfl)

theorem execEventLoad_keepsCounts (off : Nat) (ops : EventOperands) (s : State) :
    s.KeepsCounts (execEventLoad off ops s) := by
  unfold execEventLoad
  split
  · exact .answered _ _ (s.part.loadEvent_keepsCounts _ _ _)
  · exact .refused _ _ _ _

theorem execEventClear_keepsCounts (off slot : Nat) (s : State) : s.KeepsCounts (execEventClear off slot s) := by
  unfold execEventClear
  split
  · exact .refused _ _ _ _
  · exact .answered _ _ (s.part.clearSlot_keepsCounts _)

theorem execEventRead_keepsCounts (off slot : Nat) (s : State) : s.KeepsCounts (execEventRead off slot s) := by
  unfold execEventRead
  split
  · exact .refused _ _ _ _
  · exact .refused _ _ _ _

theorem execEventArm_keepsCounts (off slot : Nat) (s : State) : s.KeepsCounts (execEventArm off slot s) := by
  unfold execEventArm
  split
  · exact .refused _ _ _ _
  · exact .answered _ _ (s.part.armSlot_keepsCounts _)

theorem execListRun_keepsCounts (off slot : Nat) (s : State) : s.KeepsCounts (execListRun off slot s) := by
  unfold execListRun
  split
  · exact .refused _ _ _ _
  · exact .answered _ _ (s.part.runList_keepsCounts _)

theorem execListStop_keepsCounts (off : Nat) (s : State) : s.KeepsCounts (execListStop off s) := by
  unfold execListStop
  split
  · exact .refused _ _ _ _
  · exact .accepted _ _ (s.part.modEds_keepsCounts _)

theorem execAbort_keepsCounts (off : Nat) (s : State) : s.KeepsCounts (execAbort off s) := by
  unfold execAbort
  split
  · exact .refused _ _ _ _
  · exact .accepted _ _ (.of_aside (Part.abortEvent_aside _ _) (Part.abortEvent_ledger _ _))

theorem execEndOpen_keepsCounts (off : Nat) (s : State) : s.KeepsCounts (execEndOpen off s) := by
  unfold execEndOpen
  split
  · exact .accepted _ _ (.of_aside (Part.endOpenEvent_aside _) (Part.endOpenEvent_ledger _))
  · exact .refused _ _ _ _

theorem execPostrollEnd_keepsCounts (s : State) : s.KeepsCounts (execPostrollEnd s) :=
  .ran (.ite (.of_aside (Part.endPostroll_aside _) (Part.endPostroll_ledger _)) (.refl _))

/-! ### Mixer (chapter 10) -/

theorem execXptSet_keepsCounts (off a b c : Nat) (s : State) : s.KeepsCounts (execXptSet off a b c s) := by
  unfold execXptSet
  split
  · exact .answered _ _ (s.part.hostMix_keepsCounts _ _)
  · exact .refused _ _ _ _

theorem execKeyParams_keepsCounts (off a b c d e f : Nat) (s : State) :
    s.KeepsCounts (execKeyParams off a b c d e f s) := by
  unfold execKeyParams
  dsimp only
  split
  · exact .answered _ _ (s.part.hostMix_keepsCounts _ _)
  · exact .refused _ _ _ _

theorem execAutoTake_keepsCounts (off a b c d e f : Nat) (s : State) :
    s.KeepsCounts (execAutoTake off a b c d e f s) := by
  unfold execAutoTake
  dsimp only
  split
  · exact .answered _ _ (s.part.hostMix_keepsCounts _ _)
  · exact .refused _ _ _ _

theorem execPatternLoad_keepsCounts (off a b c d e : Nat) (s : State) :
    s.KeepsCounts (execPatternLoad off a b c d e s) := by
  unfold execPatternLoad
  dsimp only
  split
  · split
    · exact .refused _ _ _ _
    · exact .accepted _ _ (s.part.modMep_keepsCounts _)
  · exact .refused _ _ _ _

theorem execCurveLoad_keepsCounts (off n : Nat) (points : List Nat) (s : State) :
    s.KeepsCounts (execCurveLoad off n points s) := by
  unfold execCurveLoad
  split
  · exact .refused _ _ _ _
  · exact .refused _ _ _ _
  · split
    · exact .refused _ _ _ _
    · exact .accepted _ _ (s.part.modMep_keepsCounts _)

/-! ### Console (chapter 11) -/

/-- A configured input has a debounce in range and no run. -/
theorem Gpi.configured_sound (g : Gpi) (r : GpiRole) (e : Edge) (v : Nat) (d : DeckNo) :
    (g.configured r e (clampTo 1 8 v) d).Sound := by
  obtain ⟨lower, upper⟩ := clampTo_bounds (show 1 ≤ 8 by decide) v
  exact ⟨lower, upper, lower⟩

theorem execGpiConfig_keepsCounts (off input role edge debounce deck : Nat) (s : State) :
    s.KeepsCounts (execGpiConfig off input role edge debounce deck s) := by
  unfold execGpiConfig
  dsimp only
  split
  · next n r e d _ _ _ _ =>
    exact .accepted _ _ (.modGtu _ _ fun h => Gpi.sound_set h n (Gpi.configured_sound _ r e debounce d))
  · exact .refused _ _ _ _

theorem execTallyConfig_keepsCounts (off output role : Nat) (s : State) :
    s.KeepsCounts (execTallyConfig off output role s) := by
  unfold execTallyConfig
  split
  · next n r _ _ => exact .accepted _ _ (.modGtu _ (fun u => { u with tallies := u.tallies.set n r }) id)
  · exact .refused _ _ _ _

/-! ### Every command -/

/-- The commands that move the field count: field starts and resets (R4, R5). -/
def movesCount : Instr → Bool
  | .fieldStart _ _ => true
  | .powerOn => true
  | .resetLine => true
  | .resetPartFullApply => true
  | _ => false

/-- Every other command keeps the counts. -/
theorem exec_keepsCounts (i : Instr) (s : State) (other : movesCount i = false) : s.KeepsCounts (exec i s) := by
  cases i with
  | powerOn | resetLine | fieldStart | resetPartFullApply => exact absurd other (by simp [movesCount])
  | refFieldWellFormed obs time => exact .ran ((s.part.arrivingAt_keepsCounts time).trans (Part.refClosed_keepsCounts _ obs))
  | refFieldBad cause => exact .ran (.ite s.part.refBad_keepsCounts (.refl _))
  | silenceJudgement =>
    exact .ran ((Part.KeepsCounts.modRtu s.part Rtu.silenceJudged rfl rfl fun ⟨count, run, miss, candidate⟩ =>
      ⟨count, run, miss, candidate⟩).trans (Part.refBad_keepsCounts _))
  | refFieldOpened f => exact .ran (s.part.refReference_keepsCounts f)
  | packetBadFormat off kind => exact execPacketBadFormat_keepsCounts off kind s
  | packetUnknownKind | packetWrongLength => exact .refused _ _ _ _
  | statusBlockWrite =>
    exact .ran (.modPku _ (fun k => { k with
      statusWords := packetWords statusType s.part.statusBytes, statusBeside := some s.part.statusBeside }) id)
  | replyRecordWrite =>
    exact .ran (.modPku _ (fun k => { k with replyWords := replyLines k.toWrite, toWrite := [] }) id)
  | ctrlLines off a b c d => exact .accepted _ _ ⟨rfl, rfl, id, id, id, id⟩
  | clearNotices off mask => exact execClearNotices_keepsCounts off mask s
  | noticeMask off mask => exact execNoticeMask_keepsCounts off mask s
  | resetPartFull off scope => exact execResetPartFull_keepsCounts off scope s
  | resetPartEngine off => exact execResetPartEngine_keepsCounts off s
  | inputConfig off input a b c d => exact execInputConfig_keepsCounts off input a b c d s
  | substPolicy off input policy => exact execSubstPolicy_keepsCounts off input policy s
  | inputFieldReference input f time => exact execInputFieldReference_keepsCounts input f time s
  | inputFieldWellFormed input obs => exact execInputFieldWellFormed_keepsCounts input obs s
  | inputFieldBad input cause => exact .ran (.ite (s.part.inputBad_keepsCounts input _) (.refl _))
  | inputSilenceBad input => exact .ran (.ite (s.part.inputBad_keepsCounts input _) (.refl _))
  | inputNoSignal input => exact .ran (.modSiu _ _ _)
  | storeSlip input line => exact execStoreSlip_keepsCounts input line s
  | vitcReading input first second => exact .ran (s.part.formReading_keepsCounts input first second)
  | tcConfig off df a b c d => exact execTcConfig_keepsCounts off df a b c d s
  | positionStale deck => exact .ran (.of_aside (Part.judgeStale_aside _ _) (Part.judgeStale_ledger _ _))
  | markPush off deck position => exact execMarkPush_keepsCounts off deck position s
  | markPop off => exact execMarkPop_keepsCounts off s
  | markClear off => exact .accepted _ _ (.of_aside (Part.clearMarks_aside _) rfl)
  | deckAssign off deck role input => exact execDeckAssign_keepsCounts off deck role input s
  | deckParams off deck a b c d e f => exact execDeckParams_keepsCounts off deck a b c d e f s
  | deckRead off deck => exact execDeckRead_keepsCounts off deck s
  | deckDirect off deck command speed cue => exact execDeckDirect_keepsCounts off deck command speed cue s
  | slotLine deck => exact .ran (s.part.atSlotLine_keepsCounts deck)
  | frameSendEnd deck => exact .ran (.modPort _ _ _)
  | deckReplyGood deck reply => exact execDeckReplyGood_keepsCounts deck reply s
  | deckReplyBad deck => exact execDeckReplyBad_keepsCounts deck s
  | deckTimeout deck => exact .ran (s.part.judgeDeadline_keepsCounts deck)
  | chaseParams off a b c d e f => exact execChaseParams_keepsCounts off a b c d e f s
  | eventLoad off ops => exact execEventLoad_keepsCounts off ops s
  | eventClear off slot => exact execEventClear_keepsCounts off slot s
  | eventRead off slot => exact execEventRead_keepsCounts off slot s
  | eventArm off slot => exact execEventArm_keepsCounts off slot s
  | listRun off slot => exact execListRun_keepsCounts off slot s
  | cueTimeout deck => exact .ran (.of_aside (Part.judgeCueTimer_aside _ _) (Part.judgeCueTimer_ledger _ _))
  | release off => exact .accepted _ _ (.of_aside (Part.takeRelease_aside _) (Part.takeRelease_ledger _))
  | rollPlayDue deck => exact .ran (.of_aside (Part.rollPlay_aside _ _) (Part.rollPlay_ledger _ _))
  | endOpen off => exact execEndOpen_keepsCounts off s
  | postrollEnd => exact execPostrollEnd_keepsCounts s
  | abort off => exact execAbort_keepsCounts off s
  | listStop off => exact execListStop_keepsCounts off s
  | guardTrip => exact .ran (.of_aside (Part.judgeGuard_aside _) (Part.judgeGuard_ledger _))
  | guardLimit off limit => exact .accepted _ _ (s.part.modEds_keepsCounts _)
  | activeSetTake => exact .ran s.part.takeActiveSet_keepsCounts
  | xptSet off a b c => exact execXptSet_keepsCounts off a b c s
  | keyParams off a b c d e f => exact execKeyParams_keepsCounts off a b c d e f s
  | autoTake off a b c d e f => exact execAutoTake_keepsCounts off a b c d e f s
  | autoTakeEnd => exact .ran (s.part.modMep_keepsCounts _)
  | patternLoad off a b c d e => exact execPatternLoad_keepsCounts off a b c d e s
  | curveLoad off n points => exact execCurveLoad_keepsCounts off n points s
  | gpiAcceptedEdge n => exact .ran (FieldCtx.judgeEdge_keepsCounts { part := s.part, advanced := allDecks, held := [] } n)
  | gpiConfig off a b c d e => exact execGpiConfig_keepsCounts off a b c d e s
  | tallyConfig off output role => exact execTallyConfig_keepsCounts off output role s

/-- Settles O12, since every other command keeps the counts. -/
theorem fieldCountMovesAtFieldStartsOnly : Obligations.FieldCountMovesAtFieldStartsOnly := by
  intro i s t start powered line applied leads
  have other : movesCount i = false := by
    cases i with
    | fieldStart pins order => exact absurd rfl (start pins order)
    | powerOn => exact absurd rfl powered
    | resetLine => exact absurd rfl line
    | resetPartFullApply => exact absurd rfl applied
    | _ => rfl
  have kept := exec_keepsCounts i s other t leads
  exact ⟨kept.fieldCount, kept.fieldId⟩

end Sys2Proof.Machine
end

section
/-! ## The counts stay sound (O13)

A field start counts on, samples the inputs of the console and does the work of the blocks; a reset sets every count. -/

namespace Sys2Proof.Machine

open Sys2Proof

/-- All the counts are in range. -/
structure Part.CountsSound (p : Part) : Prop where
  reference : p.rtu.Sound
  console : ∀ n, (p.gtu.gpis.get n).Sound
  timeouts : ∀ d, (p.deck d).timeouts ≤ 8
  errors : p.pku.errors ≤ 255

theorem Part.countsSound_iff (p : Part) :
    (p.referenceSound && p.consoleSound && p.countersSound) = true ↔ p.CountsSound := by
  rw [Bool.and_eq_true, Bool.and_eq_true, p.referenceSound_iff, p.consoleSound_iff, p.countersSound_iff]
  exact ⟨fun ⟨⟨reference, console⟩, timeouts, errors⟩ => ⟨reference, console, timeouts, errors⟩,
    fun ⟨reference, console, timeouts, errors⟩ => ⟨⟨reference, console⟩, timeouts, errors⟩⟩

theorem Part.CountsSound.of_keepsCounts {p q : Part} (h : p.CountsSound) (k : p.KeepsCounts q) : q.CountsSound :=
  ⟨k.reference h.reference, k.console h.console, k.timeouts h.timeouts, k.errors h.errors⟩

/-! ### Resets (R5, R33) -/

theorem Part.resetWith_countsSound (p : Part) (c : ResetCause) : (p.resetWith c).CountsSound :=
  (Part.countsSound_iff _).1 (by cases c <;> rfl)

theorem Part.applyFullReset_countsSound (p : Part) : p.applyFullReset.CountsSound :=
  (p.resetWith_countsSound .command).of_keepsCounts
    ((Part.KeepsCounts.modPku _ (fun k => { k with toWrite := p.pku.building }) id).trans
      (.modRtu _ _ rfl rfl fun ⟨count, run, miss, candidate⟩ => ⟨count, run, miss, candidate⟩))

/-! ### A field start (R4, R173) -/

/-- A sample leaves the run count below the debounce, or at it with an edge due. -/
theorem Gpi.Sound.sampled {g : Gpi} (h : g.Sound) (level : Bool) :
    (g.sampled level).edgeDue = true ∨ (g.sampled level).Sound := by
  obtain ⟨lower, upper, run⟩ := h
  have grown : (g.sampled level).run ≤ g.run + 1 := by
    simp only [Gpi.sampled]
    split
    · omega
    · split <;> omega
  by_cases reached : g.debounce ≤ (g.sampled level).run
  · refine .inl ?_
    have differs : level ≠ g.accepted := by
      rintro rfl
      have stands : (g.sampled g.accepted).run = 0 := by simp [Gpi.sampled]
      omega
    simp only [Gpi.edgeDue, Bool.and_eq_true, bne_iff_ne, decide_eq_true_eq]
    exact ⟨differs, reached⟩
  · exact .inr ⟨lower, upper, Nat.lt_of_not_le reached⟩

/-- Judging an edge leaves every input sound where the others were, and this one was or has an edge due. -/
theorem FieldCtx.judgeEdge_console (x : FieldCtx) (n : Fin 4) (others : ∀ m, m ≠ n → (x.part.gtu.gpis.get m).Sound)
    (accepted : (x.part.gtu.gpis.get n).accept.Sound)
    (due : (x.part.gtu.gpis.get n).edgeDue = true ∨ (x.part.gtu.gpis.get n).Sound) :
    ∀ m, ((x.judgeEdge n).part.gtu.gpis.get m).Sound := by
  intro m
  rw [x.judgeEdge_gpis n]
  split
  · by_cases same : m = n
    · subst same
      rw [Table.get_set_self]
      exact accepted
    · rw [Table.get_set_ne _ _ same]
      exact others m same
  · next waits =>
    by_cases same : m = n
    · subst same
      exact due.resolve_left waits
    · exact others m same

/-- One input sampled and its edge judged. -/
theorem FieldCtx.gpi_console (began : Phase) (x : FieldCtx) (n : Fin 4) (h : ∀ m, (x.part.gtu.gpis.get m).Sound) :
    ∀ m, ((x.work began (.gpi n)).part.gtu.gpis.get m).Sound := by
  have sample : ∀ level : Bool, (x.part.gtu.gpis.modify n (·.sampled level)).get n = (x.part.gtu.gpis.get n).sampled level :=
    fun level => Table.get_modify_self _ n _
  obtain ⟨lower, upper, run⟩ := h n
  refine FieldCtx.judgeEdge_console _ n (fun m other => ?_) ?_ ?_
  · exact (Table.get_modify_ne _ _ other : (x.part.gtu.gpis.modify n _).get m = _) ▸ h m
  · exact (sample _).symm ▸ ⟨lower, upper, lower⟩
  · exact (sample _).symm ▸ Gpi.Sound.sampled ⟨lower, upper, run⟩ _

/-! ### The work of a field start beside the engine -/

theorem FieldCtx.releaseHeld_aside (x : FieldCtx) (d : DeckNo) : (x.releaseHeld d).part.aside = x.part.aside := by
  unfold FieldCtx.releaseHeld
  dsimp only
  generalize x.part = p
  induction x.held.filter (fun h => h.1 == d) generalizing p with
  | nil => rfl
  | cons h hs ih => exact (ih _).trans (p.capture_aside _ _)

theorem FieldCtx.react_aside (x : FieldCtx) (d : DeckNo) (r : Reaction) : (x.react d r).part.aside = x.part.aside := by
  cases r with
  | sequencer => exact x.part.signalAdvance_aside d
  | captures => exact x.releaseHeld_aside d
  | chase e =>
    simp only [FieldCtx.react, FieldCtx.computeReady]
    split
    · exact x.part.computeHeld_aside e
    · rfl

/-- The piece of work samples an input of the console. -/
def samplesInput : FieldWork → Bool
  | .gpi _ => true
  | _ => false

/-- Only the samples of the inputs touch a block of `Part.aside`, and they touch the console alone. -/
theorem FieldCtx.work_aside (began : Phase) (x : FieldCtx) (w : FieldWork) (other : samplesInput w = false) :
    (x.work began w).part.aside = x.part.aside := by
  cases w with
  | advance d first =>
    have reacts (rs : List Reaction) (y : FieldCtx) :
        (rs.foldl (fun y r => y.react d r) y).part.aside = y.part.aside := by
      induction rs generalizing y with
      | nil => rfl
      | cons r rs ih => exact (ih _).trans (y.react_aside d r)
    exact (reacts _ _).trans (x.part.advanceRecord_aside d)
  | cueTimers =>
    simp only [FieldCtx.work]
    split <;> simp
  | rollPlays =>
    simp only [FieldCtx.work]
    exact Part.each_keeps Part.aside _ (fun d q => by simp) _ _
  | postroll =>
    simp only [FieldCtx.work]
    split <;> simp
  | guard => simp [FieldCtx.work]
  | autoTake => rfl
  | gpi n => simp [samplesInput] at other

theorem FieldCtx.work_console (began : Phase) (x : FieldCtx) (w : FieldWork) (h : ∀ m, (x.part.gtu.gpis.get m).Sound) :
    ∀ m, ((x.work began w).part.gtu.gpis.get m).Sound := by
  cases kind : samplesInput w with
  | false =>
    rw [Part.gtu_of_aside (x.work_aside began w kind)]
    exact h
  | true =>
    cases w with
    | gpi n => exact x.gpi_console began n h
    | _ => simp [samplesInput] at kind

theorem Part.fieldWork_console (p : Part) (asked : List FieldWork) (h : ∀ m, (p.gtu.gpis.get m).Sound) :
    ∀ m, ((p.fieldWork asked).gtu.gpis.get m).Sound := by
  unfold Part.fieldWork
  generalize workOrder asked = ws
  generalize hx : ({ part := p, advanced := [], held := [] } : FieldCtx) = x
  replace h : ∀ m, (x.part.gtu.gpis.get m).Sound := hx ▸ h
  clear hx
  induction ws generalizing x with
  | nil => exact h
  | cons w ws ih => exact ih _ (x.work_console _ w h)

theorem Part.latchSlotLines_ledger (p : Part) : p.latchSlotLines.ledger = p.ledger := by
  unfold Part.latchSlotLines
  exact Part.each_keeps Part.ledger _ (fun d q => by simp) _ _

theorem Part.latchSlotLines_aside (p : Part) : p.latchSlotLines.aside = p.aside := by
  unfold Part.latchSlotLines
  exact Part.each_keeps Part.aside _ (fun d q => by simp) _ _

theorem Part.fieldWork_countsSound (p : Part) (asked : List FieldWork) (h : p.CountsSound) :
    (p.fieldWork asked).CountsSound where
  reference := by rw [Part.fieldWork_rtu]; exact h.reference
  console := p.fieldWork_console asked h.console
  timeouts := by
    intro d
    rw [Part.timeouts_of_ledger (p.fieldWork_ledger asked)]
    exact h.timeouts d
  errors := by rw [Part.errors_of_ledger (p.fieldWork_ledger asked)]; exact h.errors

theorem Rtu.Sound.opensField {r : Rtu} (h : r.Sound) : r.opensField.Sound := by
  have bound : nextCount r.fieldCount < Config.countModulus := Nat.mod_lt _ (by decide)
  unfold Rtu.opensField
  split
  · exact ⟨bound, h.run, h.miss, h.candidate⟩
  · exact ⟨bound, h.run, h.miss, h.candidate⟩

theorem Part.openField_countsSound (p : Part) (asked : List FieldWork) (h : p.CountsSound) :
    (p.openField asked).CountsSound := by
  have opened : ((p.modRtu Rtu.opensField).modPku fun k => k.opensField p.rtu.opensField).CountsSound :=
    ⟨h.reference.opensField, h.console, h.timeouts, h.errors⟩
  exact Part.fieldWork_countsSound _ asked
    (opened.of_keepsCounts (.of_aside (Part.latchSlotLines_aside _) (Part.latchSlotLines_ledger _)))

theorem Part.fieldStart_countsSound (p : Part) (pins : BitVec 4) (asked : List FieldWork) (h : p.CountsSound) :
    (p.fieldStart pins asked).CountsSound := by
  unfold Part.fieldStart
  extract_lets q
  have sampled : q.CountsSound := ⟨h.reference, h.console, h.timeouts, h.errors⟩
  split
  · exact q.applyFullReset_countsSound
  · exact q.openField_countsSound asked sampled

/-! ### Every step -/

/-- A luma sample period counts none of them. -/
theorem Part.tick_countsSound (p : Part) (h : p.CountsSound) : p.tick.CountsSound :=
  ⟨⟨h.reference.count, h.reference.run, h.reference.miss, h.reference.candidate⟩, h.console, h.timeouts, h.errors⟩

theorem exec_countsSound (i : Instr) (s t : State) (h : s.part.CountsSound) (leads : exec i s = .next t) :
    t.part.CountsSound := by
  cases kind : movesCount i with
  | false => exact h.of_keepsCounts (exec_keepsCounts i s kind t leads)
  | true =>
    cases i with
    | powerOn =>
      obtain rfl := Host.Outcome.next.inj leads
      exact s.part.resetWith_countsSound _
    | resetLine =>
      obtain rfl := Host.Outcome.next.inj leads
      exact s.part.resetWith_countsSound _
    | fieldStart pins order =>
      obtain rfl := Host.Outcome.next.inj leads
      exact s.part.fieldStart_countsSound pins order h
    | resetPartFullApply =>
      obtain rfl := Host.Outcome.next.inj leads
      show (if s.part.pku.fullPending then s.part.applyFullReset else s.part).CountsSound
      split
      · exact s.part.applyFullReset_countsSound
      · exact h
    | _ => simp [movesCount] at kind

/-- Settles O13: an idle step counts none of the counts, and a command keeps them sound. -/
theorem countersStaySound : Obligations.CountersStaySound := by
  intro s t sound leads
  rw [Part.countsSound_iff] at sound ⊢
  obtain ⟨p, pending⟩ := s
  cases pending with
  | nil =>
    obtain rfl := Host.Outcome.next.inj leads
    exact p.tick_countsSound sound
  | cons c rest => exact exec_countsSound c { part := p, pending := rest } t sound leads

end Sys2Proof.Machine
end

section
/-! ## Laws: the end of a postroll (R145)

The slot of an event that ended as DONE, while the cursor goes on to the slots after it. -/

namespace Sys2Proof.Machine

open Sys2Proof

/-- No event is in ROLL, RECORD or POSTROLL and no guard runs: beside the cue timers, a field start has no work at the
engine. -/
structure Eds.Still (e : Eds) : Prop where
  running : e.phase.running = false
  postroll : e.phase ≠ .postroll
  guard : e.guardRunning = false

/-- IDLE is still. -/
theorem Eds.idled_still (e : Eds) (keepLatch : Bool) : (e.idled keepLatch).Still := ⟨rfl, nofun, rfl⟩

/-- A failure leaves the engine still, if only for want of an event. -/
theorem Part.failEvent_still (p : Part) (r : Reason) (h : p.eds.Still) : (p.failEvent r).eds.Still := by
  rw [Part.failEvent_eds, Eds.failed]
  split
  · exact h
  · exact Eds.idled_still _ _

/-- The event of slot `n` has ended as DONE and been reported, and the engine is still. -/
structure Part.Ended (p : Part) (n : SlotNo) : Prop where
  state : (p.slot n).state = .done
  reason : (p.slot n).run.reason = .noReason
  notice : p.noticeSet .eventDone = true
  still : p.eds.Still

/-- It is so wherever the slot, the notices and the stillness are kept. -/
theorem Part.Ended.congr {p q : Part} {n : SlotNo} (h : p.Ended n) (slot : q.slot n = p.slot n)
    (notice : p.noticeSet .eventDone = true → q.noticeSet .eventDone = true) (still : q.eds.Still) : q.Ended n :=
  ⟨slot.symm ▸ h.state, slot.symm ▸ h.reason, notice h.notice, still⟩

/-! ### The start of another event (R134) -/

/-- The packet unit, and the engine without its cue records. -/
def Part.uncued (p : Part) : Pku × Eds := (p.pku, { p.eds with cues := .replicate 4 none })

theorem Part.giveCue_uncued (p : Part) (a : ArmResults) (d : DeckNo) : (p.giveCue a d).uncued = p.uncued := by
  unfold Part.giveCue
  split <;> rfl

theorem Part.activate_desk (p : Part) (n : SlotNo) (a : ArmResults) :
    (p.activate n a).desk =
      (p.pku, { p.eds with slots := p.eds.slots.modify n (fun s => { s with state := .active }), active := some n, cursor := n
                           phase := .cue, progress := 0, outPoint := a.outPoint, guardRunning := false, guardCount := 0 }) :=
  Part.each_keeps Part.desk _ (fun d q => q.modDeck_desk d _) _ _

theorem Slot.disarmed_of_done {s : Slot} (h : s.state = .done) : s.disarmed = s := by
  simp [Slot.disarmed, h]

/-- The failure of the event of another slot. -/
theorem Part.failEvent_ended (p : Part) {n k : SlotNo} (r : Reason) (other : n ≠ k) (active : p.eds.active = some k)
    (h : p.Ended n) : (p.failEvent r).Ended n := by
  refine h.congr ?_ (fun set => p.failEvent_noticeSet_of r set) (p.failEvent_still r h.still)
  simp only [Part.slot, p.failEvent_eds, Eds.failed, active, Eds.idled, Table.get_map, Table.get_modify_ne _ _ other]
  exact Slot.disarmed_of_done h.state

/-- The start of the event of another slot. -/
theorem Part.startEvent_ended (p : Part) {n k : SlotNo} (other : n ≠ k) (h : p.Ended n) : (p.startEvent k).Ended n := by
  unfold Part.startEvent
  split
  · exact h
  · next a _ =>
    extract_lets q
    have pku_eq : q.pku = p.pku := congrArg Prod.fst (p.activate_desk k a)
    have eds_eq : q.eds = _ := congrArg Prod.snd (p.activate_desk k a)
    have active : q.eds.active = some k := congrArg Eds.active eds_eq
    have slot_eq : q.slot n = p.slot n :=
      (congrArg (fun e : Eds => e.slots.get n) eds_eq).trans (Table.get_modify_ne _ _ other)
    have still : q.eds.Still := eds_eq ▸ ⟨rfl, nofun, rfl⟩
    have ended : q.Ended n := h.congr slot_eq (fun set => (Part.noticeSet_congr pku_eq _).trans set) still
    split
    · exact q.failEvent_ended _ other active ended
    · have kept : (q.each q.eventDecks fun d r => r.giveCue a d).uncued = q.uncued :=
        Part.each_keeps Part.uncued _ (fun d r => r.giveCue_uncued a d) _ _
      have uncued_eq := congrArg Prod.snd kept
      refine ended.congr (congrArg (fun e : Eds => e.slots.get n) uncued_eq :)
        (fun set => (Part.noticeSet_congr (congrArg Prod.fst kept) _).trans set) ⟨?_, ?_, ?_⟩
      · exact (congrArg (fun e : Eds => e.phase.running) uncued_eq).trans still.running
      · exact (congrArg Eds.phase uncued_eq).trans_ne still.postroll
      · exact (congrArg Eds.guardRunning uncued_eq).trans still.guard

/-! ### The cursor goes on (R145) -/

theorem Part.endList_ended (p : Part) {n : SlotNo} (h : p.Ended n) : p.endList.Ended n :=
  h.congr rfl (fun set => by rw [Part.noticeSet_congr p.endList_pku, Part.raise_noticeSet_eq, set, Bool.or_true])
    (p.eds.idled_still _)

theorem Part.setCursor_ended (p : Part) {n : SlotNo} (k : SlotNo) (h : p.Ended n) : (p.setCursor k).Ended n :=
  h.congr rfl id ⟨h.still.running, h.still.postroll, h.still.guard⟩

/-- An arm validation of another slot. -/
theorem Part.armSlot_ended (p : Part) {n k : SlotNo} (other : n ≠ k) (h : p.Ended n) : (p.armSlot k).1.Ended n := by
  unfold Part.armSlot
  split
  · exact h
  · exact h
  · exact h
  · exact h
  · unfold Part.armEvent
    extract_lets v q
    have marked : q.Ended n := h.congr rfl id h.still
    split
    · exact marked
    · exact marked.congr (Part.modSlot_slot_ne q _ other) id ⟨h.still.running, h.still.postroll, h.still.guard⟩

theorem slotOf_val {m : Nat} {k : SlotNo} (h : slotOf m = some k) : k.val = m := by
  unfold slotOf at h
  split at h
  · cases h
    rfl
  · cases h

/-- The cursor that goes on from a later slot. -/
theorem cursorArrives_ended {n : SlotNo} (fuel : Nat) :
    ∀ (m : Nat) (p : Part), n.val < m → p.Ended n → (cursorArrives fuel m p).Ended n := by
  induction fuel with
  | zero => exact fun m p _ h => (p.setCursor 63).endList_ended (p.setCursor_ended 63 h)
  | succ fuel ih =>
    intro m p later h
    unfold cursorArrives
    split
    · exact (p.setCursor 63).endList_ended (p.setCursor_ended 63 h)
    · next k arrives =>
      have other : n ≠ k := by
        rintro rfl
        exact absurd (slotOf_val arrives) (Nat.ne_of_lt later)
      split
      · exact ih _ _ (Nat.lt_succ_of_lt later) h
      · exact p.startEvent_ended other h
      · have armed := p.armSlot_ended other h
        split
        next q a slot =>
        rw [slot] at armed
        split
        · exact q.startEvent_ended other armed
        · exact (q.setCursor k).endList_ended (q.setCursor_ended k armed)

/-- The move on from the slot that has ended. -/
theorem Part.moveOn_ended (p : Part) {n : SlotNo} (state : (p.slot n).state = .done)
    (reason : (p.slot n).run.reason = .noReason) (notice : p.noticeSet .eventDone = true) : (p.moveOn n).Ended n := by
  unfold Part.moveOn
  split
  · refine ⟨state, reason, ?_, Eds.idled_still _ _⟩
    rw [Part.noticeSet_congr (Part.endList_pku _), Part.raise_noticeSet_eq]
    simp [show (p.setCursor (nextSlot n)).noticeSet .eventDone = true from notice]
  · exact cursorArrives_ended 64 _ _ (Nat.lt_succ_self _) ⟨state, reason, notice, p.eds.idled_still true⟩

/-- The end of a postroll: the slot is DONE and reported, wherever the cursor goes from there. -/
theorem Part.endPostroll_ended (p : Part) {n : SlotNo} (active : p.eds.active = some n) : p.endPostroll.Ended n := by
  let q := (p.stillAll.chaseStopAll).modMep Mep.release
  have desk_eq : q.desk = p.desk := by simp [q]
  have closes : q.closeSlot .done .noReason = q.modSlot n (·.closed .done .noReason) :=
    q.closeSlot_some _ _ ((congrArg Eds.active (Part.eds_of_desk desk_eq)).trans active)
  have slot_eq : ((q.closeSlot .done .noReason).raise .eventDone).slot n = (q.slot n).closed .done .noReason := by
    rw [closes, Part.raise_slot, Part.modSlot_slot_self]
  have ends : p.endPostroll = ((q.closeSlot .done .noReason).raise .eventDone).moveOn n := by
    simp only [Part.endPostroll, active]
    rfl
  rw [ends]
  exact Part.moveOn_ended _ (slot_eq ▸ rfl) (slot_eq ▸ rfl) (Part.raise_noticeSet _ _)

end Sys2Proof.Machine
end

section
/-! ## Laws: a field start's work while no event moves (R131)

Outside ROLL and RECORD, with no guard running and no role on an input of the console, a piece of work that does not count a
timer leaves the engine alone but for the progress of a transition in POSTROLL. -/

namespace Sys2Proof.Machine

open Sys2Proof

/-! ### What a piece of work leaves of the engine -/

/-- From `p` to `q` the engine is the same but for the progress, which grows in RECORD and POSTROLL only, and no notice is
cleared. -/
structure Part.Progresses (p q : Part) : Prop where
  eds : q.eds = { p.eds with progress := q.eds.progress }
  grows : p.eds.progress ≤ q.eds.progress
  stays : p.eds.phase ≠ .record → p.eds.phase ≠ .postroll → q.eds.progress = p.eds.progress
  notices : ∀ m, p.noticeSet m = true → q.noticeSet m = true

namespace Part.Progresses

theorem of_eds {p q : Part} (eds : q.eds = p.eds) (notices : ∀ m, p.noticeSet m = true → q.noticeSet m = true) :
    p.Progresses q :=
  ⟨by rw [eds], by rw [eds], fun _ _ => by rw [eds], notices⟩

theorem of_desk {p q : Part} (h : q.desk = p.desk) : p.Progresses q :=
  of_eds (Part.eds_of_desk h) fun m set => (Part.noticeSet_congr (Part.pku_of_desk h) m).trans set

theorem refl (p : Part) : p.Progresses p := of_desk rfl

theorem phase {p q : Part} (h : p.Progresses q) : q.eds.phase = p.eds.phase := by rw [h.eds]
theorem active {p q : Part} (h : p.Progresses q) : q.eds.active = p.eds.active := by rw [h.eds]
theorem guard {p q : Part} (h : p.Progresses q) : q.eds.guardRunning = p.eds.guardRunning := by rw [h.eds]
theorem outPoint {p q : Part} (h : p.Progresses q) : q.eds.outPoint = p.eds.outPoint := by rw [h.eds]
theorem slot {p q : Part} (h : p.Progresses q) (n : SlotNo) : q.slot n = p.slot n := by
  rw [Part.slot, h.eds, Part.slot]

theorem trans {p q r : Part} (h : p.Progresses q) (k : q.Progresses r) : p.Progresses r where
  eds := by rw [k.eds, h.eds]
  grows := h.grows.trans k.grows
  stays := fun record postroll =>
    (k.stays (h.phase.trans_ne record) (h.phase.trans_ne postroll)).trans (h.stays record postroll)
  notices := fun m set => k.notices m (h.notices m set)

/-- Outside RECORD and POSTROLL the engine is the same. -/
theorem eds_eq {p q : Part} (h : p.Progresses q) (record : p.eds.phase ≠ .record) (postroll : p.eds.phase ≠ .postroll) :
    q.eds = p.eds := by
  rw [h.eds, h.stays record postroll]

end Part.Progresses

theorem Part.raise_progresses (p : Part) (n : Notice) : p.Progresses (p.raise n) :=
  .of_eds rfl fun m set => by rw [Part.raise_noticeSet_eq, set, Bool.or_true]

theorem Part.pushMark_progresses (p : Part) (m : Mark) : p.Progresses (p.pushMark m) := by
  let pushed := p.modTcu fun t => { t with marks := pushedMarks m t.marks }
  have taken : p.Progresses (pushed.raise .markTaken) :=
    (Progresses.of_desk rfl : p.Progresses pushed).trans (pushed.raise_progresses .markTaken)
  unfold Part.pushMark
  dsimp only
  split
  · exact taken
  · exact taken.trans (Part.raise_progresses _ _)

theorem Part.capture_progresses (p : Part) (d : DeckNo) (g : Fin 4) : p.Progresses (p.capture d g) := by
  unfold Part.capture
  split
  · exact p.pushMark_progresses _
  · exact p.raise_progresses _

theorem FieldCtx.releaseHeld_progresses (x : FieldCtx) (d : DeckNo) : x.part.Progresses (x.releaseHeld d).part := by
  unfold FieldCtx.releaseHeld
  dsimp only
  generalize x.part = p
  induction x.held.filter (fun h => h.1 == d) generalizing p with
  | nil => exact .refl p
  | cons h hs ih => exact (p.capture_progresses _ _).trans (ih _)

/-- The EDS writes the progress of a transition, which never falls (R143). -/
theorem Part.writeTransition_progresses (p : Part) (position : Nat) (e : EventRecord) (a : ArmResults)
    (phase : p.eds.phase = .record ∨ p.eds.phase = .postroll) : p.Progresses (p.writeTransition position e a) where
  eds := rfl
  grows := Nat.le_max_right _ _
  stays := fun record postroll => (phase.elim record postroll).elim
  notices := fun _ set => set

/-! ### Chase and positions outside ROLL and RECORD -/

theorem Part.chaseLost_desk (p : Part) (r : Reason) (h : p.eds.phase.running = false) : (p.chaseLost r).desk = p.desk := by
  simp [Part.chaseLost, h]

theorem Part.syncLost_desk (p : Part) (h : p.eds.phase.running = false) : p.syncLost.desk = p.desk := by
  have phase : p.eds.phase ≠ .record := by
    intro record
    simp [record, Phase.running] at h
  simp [Part.syncLost, phase]

theorem Part.loseChase_desk (p : Part) (d : DeckNo) (e : Int) (r : Reason) (h : p.eds.phase.running = false) :
    (p.loseChase d e r).desk = p.desk :=
  Part.chaseLost_desk (p.modDeck d _) r h

theorem Part.computeWith_desk (p : Part) (d r : DeckNo) (h : p.eds.phase.running = false) :
    (p.computeWith d r).desk = p.desk := by
  unfold Part.computeWith
  extract_lets o e v q
  have judged : q.desk = p.desk := rfl
  split
  · exact p.loseChase_desk d _ _ h
  · split
    · exact q.syncLost_desk h
    · exact judged

theorem Part.computeHeld_desk (p : Part) (d : DeckNo) (h : p.eds.phase.running = false) : (p.computeHeld d).desk = p.desk := by
  unfold Part.computeHeld
  extract_lets q
  split
  · split
    · unfold Part.compute
      split
      · rfl
      · split
        · exact q.computeWith_desk _ _ h
        · rfl
    · rfl
  · rfl

theorem Part.loseStale_desk (p : Part) (d : DeckNo) (h : p.eds.phase.running = false) : (p.loseStale d).desk = p.desk := by
  unfold Part.loseStale
  split
  · exact p.loseChase_desk d _ _ h
  · rfl

theorem Part.eachLoseStale_desk (ds : List DeckNo) (p : Part) (h : p.eds.phase.running = false) :
    (p.each ds fun x q => q.loseStale x).desk = p.desk := by
  unfold Part.each
  induction ds generalizing p with
  | nil => rfl
  | cons d ds ih =>
    have lost := p.loseStale_desk d h
    exact (ih _ ((congrArg (fun e : Eds => e.phase.running) (Part.eds_of_desk lost)).trans h)).trans lost

theorem Part.advanceRecord_desk (p : Part) (d : DeckNo) (h : p.eds.phase.running = false) :
    (p.advanceRecord d).desk = p.desk := by
  unfold Part.advanceRecord Part.judgeStale
  dsimp only
  split
  · unfold Part.positionStale
    split
    · exact Part.eachLoseStale_desk allDecks (Part.modDeck _ d _) h
    · exact Part.loseStale_desk (Part.modDeck _ d _) d h
  · rfl

/-- The EDS hears of the recorder's advance in no other phase than POSTROLL. -/
theorem Part.signalAdvance_progresses (p : Part) (d : DeckNo) (h : p.eds.phase.running = false) :
    p.Progresses (p.signalAdvance d) := by
  have roll : p.eds.phase ≠ .roll := by
    intro roll
    simp [roll, Phase.running] at h
  unfold Part.signalAdvance
  split
  · unfold Part.recorderAdvanced
    split
    · simp only [roll, false_and, if_false]
      split
      · next record => simp [record, Phase.running] at h
      · next postroll => exact p.writeTransition_progresses _ _ _ (.inr postroll)
      · exact .refl p
    · exact .refl p
  · exact .refl p

/-- What waits for an advance. -/
theorem FieldCtx.react_progresses (x : FieldCtx) (d : DeckNo) (r : Reaction) (h : x.part.eds.phase.running = false) :
    x.part.Progresses (x.react d r).part := by
  cases r with
  | sequencer => exact x.part.signalAdvance_progresses d h
  | captures => exact x.releaseHeld_progresses d
  | chase e =>
    simp only [FieldCtx.react, FieldCtx.computeReady]
    split
    · exact .of_desk (x.part.computeHeld_desk e h)
    · exact .refl _

theorem FieldCtx.advance_progresses (began : Phase) (x : FieldCtx) (d : DeckNo) (first : List Reaction)
    (h : x.part.eds.phase.running = false) : x.part.Progresses (x.work began (.advance d first)).part := by
  have reacts (rs : List Reaction) (y : FieldCtx) (off : y.part.eds.phase.running = false) :
      y.part.Progresses (rs.foldl (fun y r => y.react d r) y).part := by
    induction rs generalizing y with
    | nil => exact .refl _
    | cons r rs ih =>
      have reacted := y.react_progresses d r off
      exact reacted.trans (ih _ (reacted.phase ▸ off))
  have advanced : x.part.Progresses (x.part.advanceRecord d) := .of_desk (x.part.advanceRecord_desk d h)
  exact advanced.trans (reacts _ { x with part := x.part.advanceRecord d, advanced := d :: x.advanced } (advanced.phase ▸ h))

/-! ### The pieces that are no advance -/

/-- No input of the console has a role. -/
def Part.Quiet (p : Part) : Prop := ∀ g : Fin 4, (p.gtu.gpis.get g).role = .noRole

/-- The blocks that a field start's work on the events is about: packet unit, engine, tapes and chase. -/
def Part.studio (p : Part) : Pku × Eds × Tcu × Table Deck 4 × Chu := (p.pku, p.eds, p.tcu, p.decks, p.chu)

/-- An edge of an input without a role is handed on to nothing. -/
theorem FieldCtx.judgeEdge_studio (x : FieldCtx) (n : Fin 4) (h : (x.part.gtu.gpis.get n).role = .noRole) :
    (x.judgeEdge n).part.studio = x.part.studio := by
  unfold FieldCtx.judgeEdge
  extract_lets g x'
  have unheard : x'.handEdge g n = x' := by simp only [FieldCtx.handEdge, show g.role = .noRole from h]
  split
  · split
    · rw [unheard]
      rfl
    · rfl
  · rfl

theorem FieldCtx.judgeEdge_roles (x : FieldCtx) (n : Fin 4) :
    (x.judgeEdge n).part.gtu.gpis.map Gpi.role = x.part.gtu.gpis.map Gpi.role := by
  rw [x.judgeEdge_gpis n]
  split
  · exact Table.map_modify Gpi.role _ n Gpi.accept fun _ => rfl
  · rfl

/-- The roles of the inputs are no matter of a field start. -/
theorem FieldCtx.work_roles (began : Phase) (x : FieldCtx) (w : FieldWork) :
    (x.work began w).part.gtu.gpis.map Gpi.role = x.part.gtu.gpis.map Gpi.role := by
  cases kind : samplesInput w with
  | false => rw [Part.gtu_of_aside (x.work_aside began w kind)]
  | true =>
    cases w with
    | gpi n =>
      exact (FieldCtx.judgeEdge_roles _ n).trans
        (Table.map_modify Gpi.role x.part.gtu.gpis n (·.sampled (x.part.gtu.pins.getLsbD n.val)) fun _ => rfl)
    | _ => simp [samplesInput] at kind

theorem Part.Quiet.work {x : FieldCtx} (h : x.part.Quiet) (began : Phase) (w : FieldWork) : (x.work began w).part.Quiet :=
  fun g => (Table.get_eq_of_map_eq (x.work_roles began w) g).trans (h g)

/-- The deck whose record the piece of work advances. -/
def advances : FieldWork → Option DeckNo
  | .advance d _ => some d
  | _ => none

/-- The piece of work counts a timer of this phase. -/
def counts : FieldWork → Phase → Bool
  | .cueTimers, .cue => true
  | .postroll, .postroll => true
  | _, _ => false

theorem Part.rollPlay_off (p : Part) (d : DeckNo) (h : p.eds.phase ≠ .roll) : p.rollPlay d = p := by
  simp [Part.rollPlay, Part.playDue, h]

theorem Part.eachRollPlay_off (ds : List DeckNo) (p : Part) (h : p.eds.phase ≠ .roll) :
    (p.each ds fun d q => q.rollPlay d) = p := by
  unfold Part.each
  induction ds with
  | nil => rfl
  | cons d ds ih => simp only [List.foldl_cons, p.rollPlay_off d h, ih]

/-- Beside the advances and the timers that count in its phase, a field start has no work at the studio blocks outside
ROLL. -/
theorem FieldCtx.work_studio (began : Phase) (x : FieldCtx) (w : FieldWork) (no_advance : advances w = none)
    (no_count : counts w began = false) (guard : w = .guard → x.part.eds.guardRunning = false)
    (roll : x.part.eds.phase ≠ .roll) (quiet : x.part.Quiet) : (x.work began w).part.studio = x.part.studio := by
  cases w with
  | advance d first => simp [advances] at no_advance
  | cueTimers =>
    have other : began ≠ .cue := by
      rintro rfl
      simp [counts] at no_count
    simp only [FieldCtx.work, other, if_false]
  | rollPlays => simp only [FieldCtx.work, Part.eachRollPlay_off allDecks x.part roll]
  | postroll =>
    have other : began ≠ .postroll := by
      rintro rfl
      simp [counts] at no_count
    simp only [FieldCtx.work, other, if_false]
  | guard => simp only [FieldCtx.work, Part.tickGuard, guard rfl, Bool.false_eq_true, if_false]
  | autoTake => rfl
  | gpi n =>
    have role : ((x.part.gtu.gpis.modify n (·.sampled (x.part.gtu.pins.getLsbD n.val))).get n).role = .noRole := by
      rw [Table.get_modify_self]
      exact quiet n
    exact FieldCtx.judgeEdge_studio
      { x with part := x.part.modGtu fun u => { u with gpis := u.gpis.modify n (·.sampled _) } } n role

theorem Part.desk_of_studio {p q : Part} (h : q.studio = p.studio) : q.desk = p.desk :=
  congrArg (fun x : Pku × Eds × Tcu × Table Deck 4 × Chu => (x.1, x.2.1)) h

/-! ### The work while no event moves -/

/-- No event is in ROLL or RECORD, no guard runs, and no input has a role. -/
structure Part.Settled (p : Part) : Prop where
  running : p.eds.phase.running = false
  guard : p.eds.guardRunning = false
  quiet : p.Quiet

/-- One piece of work that counts no timer. -/
theorem Part.Settled.work {x : FieldCtx} (h : x.part.Settled) (began : Phase) (w : FieldWork)
    (no_count : counts w began = false) :
    x.part.Progresses (x.work began w).part ∧ (x.work began w).part.Settled := by
  have progresses : x.part.Progresses (x.work began w).part := by
    cases advance : advances w with
    | some d =>
      cases w with
      | advance d first => exact x.advance_progresses began d first h.running
      | _ => simp [advances] at advance
    | none =>
      have roll : x.part.eds.phase ≠ .roll := by
        intro roll
        have running := h.running
        simp [roll, Phase.running] at running
      exact .of_desk (Part.desk_of_studio (x.work_studio began w advance no_count (fun _ => h.guard) roll h.quiet))
  exact ⟨progresses, progresses.phase ▸ h.running, progresses.guard.trans h.guard, h.quiet.work began w⟩

theorem Part.Settled.works {x : FieldCtx} (h : x.part.Settled) (began : Phase) (ws : List FieldWork)
    (no_count : ∀ w ∈ ws, counts w began = false) :
    x.part.Progresses (ws.foldl (FieldCtx.work began) x).part ∧ (ws.foldl (FieldCtx.work began) x).part.Settled := by
  induction ws generalizing x with
  | nil => exact ⟨.refl _, h⟩
  | cons w ws ih =>
    rw [List.forall_mem_cons] at no_count
    obtain ⟨first, settled⟩ := h.work began w no_count.1
    obtain ⟨rest, last⟩ := ih settled no_count.2
    exact ⟨first.trans rest, last⟩

/-! ### The place of a timer in the order of the work -/

/-- The timers and the guard stand once in the order of the work. -/
theorem workOrder_split (asked : List FieldWork) {w : FieldWork} (mem : w ∈ defaultWork) (timer : advances w = none) :
    ∃ before after, workOrder asked = before ++ w :: after ∧ w ∉ before ∧ w ∉ after := by
  obtain ⟨nodup, all⟩ := workOrder_spec asked
  have same : ∀ v : FieldWork, v.piece = w.piece → v = w := by
    intro v eq
    cases v <;> cases w <;> simp_all [FieldWork.piece, advances]
  obtain ⟨v, stands, piece⟩ := List.mem_map.1 (all w mem)
  obtain rfl := same v piece
  obtain ⟨before, after, split⟩ := List.append_of_mem stands
  rw [split, List.map_append, List.map_cons, List.nodup_append] at nodup
  obtain ⟨-, rest, disjoint⟩ := nodup
  refine ⟨before, after, split, fun early => ?_, fun late => ?_⟩
  · exact disjoint _ (List.mem_map_of_mem early) _ List.mem_cons_self rfl
  · exact (List.nodup_cons.1 rest).1 (List.mem_map_of_mem late)

end Sys2Proof.Machine
end

section
/-! ## Laws: a field start's work in RECORD short of the out-point (R143, R144)

With no record going stale, no computation held and the recorder short of the out-point, the advances write the progress of
the transition and nothing else at the engine. -/

namespace Sys2Proof.Machine

open Sys2Proof

/-- What the work of a field start reads of a deck to see where its tape is. -/
def Deck.tape (k : Deck) : PosRec × Role × Transport × Int := (k.position, k.role, k.transport, k.speed)

theorem Part.modDeck_tape (p : Part) (d : DeckNo) (f : Deck → Deck) (h : ∀ k, (f k).tape = k.tape) (e : DeckNo) :
    ((p.modDeck d f).deck e).tape = (p.deck e).tape :=
  Table.get_eq_of_map_eq (Table.map_modify Deck.tape p.decks d f h) e

/-- From `p` to `q` the event runs on as it did, and no tape but those of `moved` has moved. -/
structure Part.Coasts (moved : List DeckNo) (p q : Part) : Prop where
  progresses : p.Progresses q
  tape : ∀ e, e ∉ moved → (q.deck e).tape = (p.deck e).tape
  chu : q.chu = p.chu
  counting : q.counting = p.counting

namespace Part.Coasts

theorem refl (moved : List DeckNo) (p : Part) : Part.Coasts moved p p := ⟨.refl p, fun _ _ => rfl, rfl, rfl⟩

theorem trans {moved : List DeckNo} {p q r : Part} (h : Part.Coasts moved p q) (k : Part.Coasts moved q r) :
    Part.Coasts moved p r :=
  ⟨h.progresses.trans k.progresses, fun e still => (k.tape e still).trans (h.tape e still), k.chu.trans h.chu,
    k.counting.trans h.counting⟩

theorem mono {moved more : List DeckNo} {p q : Part} (h : Part.Coasts moved p q) (sub : moved ⊆ more) :
    Part.Coasts more p q :=
  ⟨h.progresses, fun e still => h.tape e fun mem => still (sub mem), h.chu, h.counting⟩

theorem of_studio {p q : Part} (moved : List DeckNo) (h : q.studio = p.studio) (rtu : q.rtu = p.rtu) :
    Part.Coasts moved p q := by
  obtain ⟨-, -, tcu, decks, chu⟩ : q.pku = p.pku ∧ q.eds = p.eds ∧ q.tcu = p.tcu ∧ q.decks = p.decks ∧ q.chu = p.chu := by
    simpa [Part.studio] using h
  exact ⟨.of_desk (Part.desk_of_studio h), fun e _ => by rw [Part.deck, decks, Part.deck], chu,
    by rw [Part.counting, rtu, tcu, Part.counting]⟩

end Part.Coasts

/-! ### What waits for an advance -/

/-- RECORD, with no computation held. -/
structure Part.Recording (p : Part) : Prop where
  phase : p.eds.phase = .record
  pending : ∀ e, (p.chu.own.get e).pending = false

/-- The record of deck d has not reached the out-point, where it is the recorder's and valid. -/
def Part.Short (p : Part) (d : DeckNo) : Prop :=
  (p.deck d).role = .recorder → (p.deck d).position.valid = true → ∀ o, p.eds.outPoint = some o →
    reached p.counting (p.deck d).position.position (2 * (o : Int)) = false

theorem Part.Recording.coasts {p q : Part} {moved : List DeckNo} (h : p.Recording) (k : Part.Coasts moved p q) : q.Recording :=
  ⟨k.progresses.phase.trans h.phase, fun e => by rw [k.chu]; exact h.pending e⟩

theorem Part.Short.coasts {p q : Part} {moved : List DeckNo} {d : DeckNo} (h : p.Short d) (k : Part.Coasts moved p q)
    (still : d ∉ moved) : q.Short d := by
  have position : (q.deck d).position = (p.deck d).position := congrArg Prod.fst (k.tape d still)
  have role : (q.deck d).role = (p.deck d).role :=
    congrArg (fun x : PosRec × Role × Transport × Int => x.2.1) (k.tape d still)
  unfold Part.Short
  rw [position, role, k.counting, k.progresses.outPoint]
  exact h

theorem Part.wantRecordOff_coasts (p : Part) (d : DeckNo) : Part.Coasts [] p (p.wantRecordOff d) :=
  ⟨.of_desk rfl, fun e _ => p.modDeck_tape d (fun k => { k with wantRecord := false }) (fun _ => rfl) e, rfl, rfl⟩

/-- Short of the out-point the span has at most its record-off point. -/
theorem Part.spanPoints_coasts (p : Part) (d : DeckNo) (position : Nat) (e : EventRecord)
    (short : ∀ o, p.eds.outPoint = some o → reached p.counting position (2 * (o : Int)) = false) :
    Part.Coasts [] p (p.spanPoints d position e) := by
  unfold Part.spanPoints
  split
  · exact .refl _ p
  · next o out =>
    dsimp only
    rw [short o out]
    simp only [Bool.false_eq_true, if_false]
    split
    · exact p.wantRecordOff_coasts d
    · exact .refl _ p

/-- The recorder's advance short of the out-point writes the transition (R143). -/
theorem Part.signalAdvance_coasts (p : Part) (d : DeckNo) (h : p.Recording) (short : p.Short d) :
    Part.Coasts [] p (p.signalAdvance d) := by
  have phase := h.phase
  unfold Part.signalAdvance
  split
  · next heard =>
    obtain ⟨valid, role⟩ : (p.deck d).position.valid = true ∧ (p.deck d).role = .recorder := by simpa using heard
    unfold Part.recorderAdvanced
    split
    · next e a _ _ =>
      simp only [phase, reduceCtorEq, false_and, if_false]
      have written : Part.Coasts [] p (p.writeTransition (p.deck d).position.position e a) :=
        ⟨p.writeTransition_progresses _ _ _ (.inl phase), fun _ _ => rfl, rfl, rfl⟩
      exact written.trans (Part.spanPoints_coasts _ _ _ _ (short role valid))
    · exact .refl _ p
  · exact .refl _ p

theorem Part.pushMark_coasts (p : Part) (m : Mark) : Part.Coasts [] p (p.pushMark m) := by
  refine ⟨p.pushMark_progresses m, fun e _ => ?_, ?_, ?_⟩ <;> unfold Part.pushMark <;> dsimp only <;> split <;> rfl

theorem Part.capture_coasts (p : Part) (d : DeckNo) (g : Fin 4) : Part.Coasts [] p (p.capture d g) := by
  unfold Part.capture
  split
  · exact p.pushMark_coasts _
  · exact ⟨p.raise_progresses _, fun _ _ => rfl, rfl, rfl⟩

theorem FieldCtx.react_coasts (x : FieldCtx) (d : DeckNo) (r : Reaction) (h : x.part.Recording) (short : x.part.Short d) :
    Part.Coasts [] x.part (x.react d r).part := by
  cases r with
  | sequencer => exact x.part.signalAdvance_coasts d h short
  | captures =>
    simp only [FieldCtx.react, FieldCtx.releaseHeld]
    generalize x.part = p
    induction x.held.filter (fun h => h.1 == d) generalizing p with
    | nil => exact .refl _ p
    | cons c cs ih => exact (p.capture_coasts _ _).trans (ih _)
  | chase e =>
    simp only [FieldCtx.react, FieldCtx.computeReady]
    split
    · exact (x.part.computeHeld_none e (h.pending e)).symm ▸ .refl _ _
    · exact .refl _ _

theorem FieldCtx.reacts_coasts (d : DeckNo) (rs : List Reaction) (x : FieldCtx) (h : x.part.Recording)
    (short : x.part.Short d) : Part.Coasts [] x.part (rs.foldl (fun y r => y.react d r) x).part := by
  induction rs generalizing x with
  | nil => exact .refl _ _
  | cons r rs ih =>
    have reacted := x.react_coasts d r h short
    exact reacted.trans (ih _ (h.coasts reacted) (short.coasts reacted List.not_mem_nil))

/-! ### The advance of a record (R62) -/

theorem PosRec.advanced_age (r : PosRec) (day : Nat) (t : Transport) (v : Int) : (r.advanced day t v).age = aged r.age := by
  unfold PosRec.advanced
  dsimp only
  split
  · rfl
  · split
    · rfl
    · rfl

theorem PosRec.valid_of_advanced (r : PosRec) (day : Nat) (t : Transport) (v : Int)
    (h : (r.advanced day t v).valid = true) : r.valid = true := by
  unfold PosRec.advanced at h
  dsimp only at h
  split at h
  · cases h
  · split at h
    · exact h
    · exact h

/-- A record younger than thirty field starts does not go stale at one (R62). -/
theorem PosRec.advanced_fresh (r : PosRec) (day : Nat) (t : Transport) (v : Int) (young : r.age < 30) :
    (r.advanced day t v).stale = false := by
  have bound : aged r.age ≤ 30 := (Nat.min_le_right _ _).trans young
  simp only [PosRec.stale, r.advanced_age, Nat.not_lt.2 bound, decide_false, Bool.and_false]

/-- The record of deck d is young, and its advance stays short of the out-point where it is the recorder's and valid. -/
structure Part.Unhurried (p : Part) (d : DeckNo) : Prop where
  young : (p.deck d).position.age < 30
  short : (p.deck d).role = .recorder → (p.deck d).position.valid = true → ∀ o, p.eds.outPoint = some o →
    p.counting.sym ((((p.deck d).position.advanced p.counting.day (p.deck d).transport (p.deck d).speed).position : Int)
      - 2 * (o : Int)) < 0

theorem Part.Unhurried.coasts {p q : Part} {moved : List DeckNo} {d : DeckNo} (h : p.Unhurried d)
    (k : Part.Coasts moved p q) (still : d ∉ moved) : q.Unhurried d := by
  obtain ⟨position, role, transport, speed⟩ : (q.deck d).position = (p.deck d).position ∧ (q.deck d).role = (p.deck d).role
      ∧ (q.deck d).transport = (p.deck d).transport ∧ (q.deck d).speed = (p.deck d).speed := by
    simpa [Deck.tape] using k.tape d still
  constructor
  · rw [position]
    exact h.young
  · rw [position, role, transport, speed, k.counting, k.progresses.outPoint]
    exact h.short

/-- The advance of such a record moves its tape and is heard by nobody. -/
theorem Part.advanceRecord_coasts (p : Part) (d : DeckNo) (h : p.Unhurried d) :
    Part.Coasts [d] p (p.advanceRecord d) ∧ (p.advanceRecord d).Short d := by
  let k := p.deck d
  let q := p.modDeck d fun x => { x with position := x.position.advanced p.counting.day k.transport k.speed }
  have deck_eq : q.deck d = { k with position := k.position.advanced p.counting.day k.transport k.speed } :=
    p.modDeck_deck_self d _
  have fresh : (q.deck d).position.stale = false := deck_eq ▸ k.position.advanced_fresh _ _ _ h.young
  have advances : p.advanceRecord d = q := by
    show q.judgeStale d = q
    simp only [Part.judgeStale, fresh, Bool.false_eq_true, if_false]
  rw [advances]
  refine ⟨⟨.of_desk rfl, fun e still => ?_, rfl, rfl⟩, ?_⟩
  · have other : e ≠ d := by simpa using still
    rw [p.modDeck_deck_ne _ other]
  · intro role valid o out
    rw [deck_eq] at role valid ⊢
    have before := h.short role (k.position.valid_of_advanced _ _ _ valid) o out
    simp only [reached, decide_eq_false_iff_not, Int.not_le]
    exact before

theorem FieldCtx.advance_coasts (began : Phase) (x : FieldCtx) (d : DeckNo) (first : List Reaction) (h : x.part.Recording)
    (unhurried : x.part.Unhurried d) : Part.Coasts [d] x.part (x.work began (.advance d first)).part := by
  obtain ⟨advanced, short⟩ := x.part.advanceRecord_coasts d unhurried
  have reacted := FieldCtx.reacts_coasts d (reactionOrder first)
    { x with part := x.part.advanceRecord d, advanced := d :: x.advanced } (h.coasts advanced) short
  exact advanced.trans (reacted.mono (List.nil_subset _))

/-! ### All the work but the guard's -/

/-- The decks whose records the work advances. -/
def advancedBy (ws : List FieldWork) : List DeckNo := ws.filterMap advances

/-- Work of which each piece is done once advances each deck once. -/
theorem advancedBy_nodup {ws : List FieldWork} (nodup : (ws.map FieldWork.piece).Nodup) : (advancedBy ws).Nodup := by
  refine List.pairwise_filterMap.2 ((List.pairwise_map.1 nodup).imp ?_)
  rintro v w differ d advance _ again rfl
  cases v <;> cases w <;> simp_all [advances, FieldWork.piece]

/-- One piece of work in RECORD that is not the guard's. -/
theorem FieldCtx.work_coasts (x : FieldCtx) (w : FieldWork) (h : x.part.Recording) (quiet : x.part.Quiet)
    (no_guard : w ≠ .guard) (unhurried : ∀ d, advances w = some d → x.part.Unhurried d) :
    Part.Coasts (advancedBy [w]) x.part (x.work .record w).part := by
  cases advance : advances w with
  | some d =>
    cases w with
    | advance e first =>
      obtain rfl : e = d := by simpa [advances] using advance
      exact x.advance_coasts .record e first h (unhurried e advance)
    | _ => simp [advances] at advance
  | none =>
    have no_count : counts w .record = false := by cases w <;> rfl
    have roll : x.part.eds.phase ≠ .roll := by simp [h.phase]
    exact .of_studio _ (x.work_studio .record w advance no_count (fun guard => absurd guard no_guard) roll quiet)
      (x.work_rtu .record w)

/-- The work of a field start in RECORD, the guard's apart. -/
theorem FieldCtx.works_coast (ws : List FieldWork) (x : FieldCtx) (h : x.part.Recording) (quiet : x.part.Quiet)
    (no_guard : .guard ∉ ws) (nodup : (ws.map FieldWork.piece).Nodup)
    (unhurried : ∀ d ∈ advancedBy ws, x.part.Unhurried d) :
    Part.Coasts (advancedBy ws) x.part (ws.foldl (FieldCtx.work .record) x).part
    ∧ (ws.foldl (FieldCtx.work .record) x).part.Quiet := by
  induction ws generalizing x with
  | nil => exact ⟨.refl _ _, quiet⟩
  | cons w ws ih =>
    have decks : advancedBy (w :: ws) = advancedBy [w] ++ advancedBy ws := by
      simp [advancedBy, ← List.filterMap_append]
    rw [decks] at unhurried ⊢
    rw [List.mem_cons, not_or] at no_guard
    have worked := x.work_coasts w h quiet (Ne.symm no_guard.1) fun d advance =>
      unhurried d (List.mem_append_left _ (by simp [advancedBy, advance]))
    have kept : ∀ d ∈ advancedBy ws, d ∉ advancedBy [w] := fun d later now =>
      (List.nodup_append.1 (decks ▸ advancedBy_nodup nodup)).2.2 d now d later rfl
    obtain ⟨rest, last⟩ := ih (x.work .record w) (h.coasts worked) (quiet.work .record w) no_guard.2
      (List.nodup_cons.1 nodup).2 fun d later =>
        (unhurried d (List.mem_append_right _ later)).coasts worked (kept d later)
    exact ⟨(worked.mono (List.subset_append_left _ _)).trans (rest.mono (List.subset_append_right _ _)), last⟩

end Sys2Proof.Machine
end

section
/-! ## The field start (O6)

A field start is the opening of the field and then the work, which is cut at the one piece that counts in the phase. -/

namespace Sys2Proof.Machine

open Sys2Proof

/-! ### The opening of the field (R4, R18, R26) -/

/-- The part with its field opened, before the work of the field start. -/
def Part.opened (p : Part) (pins : BitVec 4) : Part :=
  (((p.modGtu fun g => { g with pins := pins }).modRtu Rtu.opensField).modPku
    fun k => k.opensField p.rtu.opensField).latchSlotLines

theorem Part.fieldStart_eq (p : Part) (pins : BitVec 4) (asked : List FieldWork) (h : p.pku.fullPending = false) :
    p.fieldStart pins asked = (p.opened pins).fieldWork asked := by
  have none_pending : (p.modGtu fun g => { g with pins := pins }).pku.fullPending = false := h
  simp only [Part.fieldStart, none_pending, Bool.false_eq_true, if_false]
  rfl

@[simp] theorem Part.modPort_studio (p : Part) (d : DeckNo) (f : Port → Port) : (p.modPort d f).studio = p.studio := rfl

theorem Part.latchSlotLines_studio (p : Part) : p.latchSlotLines.studio = p.studio := by
  unfold Part.latchSlotLines
  exact Part.each_keeps Part.studio _ (fun d q => q.modPort_studio d _) _ _

theorem Part.opened_studio (p : Part) (pins : BitVec 4) :
    (p.opened pins).studio = (p.pku.opensField p.rtu.opensField, p.eds, p.tcu, p.decks, p.chu) :=
  Part.latchSlotLines_studio _

theorem Part.opened_aside (p : Part) (pins : BitVec 4) :
    (p.opened pins).aside = (p.rtu.opensField, p.sius, { p.gtu with pins := pins }) :=
  Part.latchSlotLines_aside _

/-- A field that follows in the RTU timing (R3, R4). -/
theorem Rtu.opensField_follows (r : Rtu) (h : r.timing.owes = none) :
    r.opensField = { r with fieldCount := nextCount r.fieldCount, fieldId := r.timing.counted.other
                            timing := r.timingFromHere } := by
  simp only [Rtu.opensField, h]

/-- A field that was owed since a snap (R9). -/
theorem Rtu.opensField_owed (r : Rtu) {x : FieldId × Standard} (h : r.timing.owes = some x) :
    r.opensField = { r with fieldCount := nextCount r.fieldCount, fieldId := x.1, timing := r.timingFromSnap x.2 } := by
  simp only [Rtu.opensField, h]

theorem Rtu.opensField_kept (r : Rtu) : r.opensField.std = r.std ∧ r.opensField.lock = r.lock := by
  unfold Rtu.opensField
  split <;> exact ⟨rfl, rfl⟩

/-! ### The inputs at a field start -/

theorem FieldCtx.judgeEdge_sius (x : FieldCtx) (n : Fin 4) : (x.judgeEdge n).part.sius = x.part.sius := by
  unfold FieldCtx.judgeEdge
  dsimp only
  split
  · split
    · exact Eq.trans (Part.sius_of_aside (FieldCtx.handEdge_aside _ _ _)) rfl
    · rfl
  · rfl

theorem FieldCtx.work_sius (began : Phase) (x : FieldCtx) (w : FieldWork) : (x.work began w).part.sius = x.part.sius := by
  cases kind : samplesInput w with
  | false => exact Part.sius_of_aside (x.work_aside began w kind)
  | true =>
    cases w with
    | gpi n => exact FieldCtx.judgeEdge_sius _ n
    | _ => simp [samplesInput] at kind

theorem Part.fieldWork_sius (p : Part) (asked : List FieldWork) : (p.fieldWork asked).sius = p.sius := by
  unfold Part.fieldWork
  suffices folds : ∀ (ws : List FieldWork) (x : FieldCtx),
      (ws.foldl (FieldCtx.work p.eds.phase) x).part.sius = x.part.sius from folds _ _
  intro ws
  induction ws with
  | nil => exact fun _ => rfl
  | cons w ws ih => exact fun x => (ih _).trans (x.work_sius _ w)

/-! ### The work cut at the timer of the phase -/

/-- The work of a field start outside ROLL and RECORD is that of the timer of its phase, between work that moves no event. -/
theorem Part.fieldWork_timer (p : Part) (asked : List FieldWork) (h : p.Settled) {w : FieldWork} (mem : w ∈ defaultWork)
    (timer : advances w = none) (only : ∀ v, counts v p.eds.phase = true → v = w) :
    ∃ (x : FieldCtx) (after : List FieldWork), p.Progresses x.part ∧ x.part.Settled
      ∧ p.fieldWork asked = (after.foldl (FieldCtx.work p.eds.phase) (x.work p.eds.phase w)).part
      ∧ ∀ v ∈ after, counts v p.eds.phase = false := by
  obtain ⟨before, after, split, early, late⟩ := workOrder_split asked mem timer
  have others : ∀ ws : List FieldWork, w ∉ ws → ∀ v ∈ ws, counts v p.eds.phase = false := by
    intro ws out v stands
    by_contra count
    exact out (only v (Bool.of_not_eq_false count) ▸ stands)
  obtain ⟨progresses, settled⟩ := h.works (x := { part := p, advanced := [], held := [] }) p.eds.phase before (others before early)
  refine ⟨_, after, progresses, settled, ?_, others after late⟩
  rw [Part.fieldWork, split, List.foldl_append, List.foldl_cons]

/-- What fails an event stays so while no event moves. -/
theorem Part.FailedAs.progresses {p q q' : Part} {r : Reason} (h : p.FailedAs q r) (k : q.Progresses q') : p.FailedAs q' r := by
  intro n active
  obtain ⟨slot, idle, ended, notice⟩ := h n active
  exact ⟨(k.slot n).trans slot, k.phase.trans idle, k.active.trans ended, k.notices _ notice⟩

/-- The event that fails is the one that was active before. -/
theorem Part.FailedAs.of_slots {p p' q : Part} {r : Reason} (h : p'.FailedAs q r) (active : p'.eds.active = p.eds.active)
    (slot : ∀ n, p'.slot n = p.slot n) : p.FailedAs q r := by
  intro n act
  rw [← slot n]
  exact h n (active.trans act)

/-! ### CUE (R136) -/

/-- Judging one cue timer after another fails the event where one has run out. -/
theorem Part.eachJudgeCueTimer (ds : List DeckNo) (p : Part) :
    (p.each ds fun d q => q.judgeCueTimer d) =
      if ∃ d ∈ ds, p.cueExpired d = true then p.failEvent .cueTimeout else p := by
  unfold Part.each
  induction ds generalizing p with
  | nil => simp
  | cons d ds ih =>
    rw [List.foldl_cons, ih]
    by_cases expired : p.cueExpired d = true
    · have failed : p.judgeCueTimer d = p.failEvent .cueTimeout := by simp [Part.judgeCueTimer, expired]
      have again : (p.failEvent .cueTimeout).failEvent .cueTimeout = p.failEvent .cueTimeout :=
        Part.failEvent_none _ _ (p.failEvent_active _)
      simp only [failed, again, ite_self, List.mem_cons, exists_eq_or_imp, expired, true_or, if_true]
    · have waits : p.judgeCueTimer d = p := by simp [Part.judgeCueTimer, expired]
      rw [Bool.not_eq_true] at expired
      simp only [waits, List.mem_cons, exists_eq_or_imp, expired, Bool.false_eq_true, false_or]

/-- The engine with every cue timer counted down that counts. -/
def Eds.cueTicked (e : Eds) : Eds := { e with cues := e.cues.map (Option.map CueRecord.ticked) }

/-- In CUE a field start counts the cue timers, and fails the event where one runs out. -/
theorem Part.fieldWork_cue (p : Part) (asked : List FieldWork) (h : p.Settled) (phase : p.eds.phase = .cue) :
    ((¬ ∃ d, (p.modEds Eds.cueTicked).cueExpired d = true) → (p.fieldWork asked).eds = p.eds.cueTicked)
    ∧ ((∃ d, (p.modEds Eds.cueTicked).cueExpired d = true) → p.FailedAs (p.fieldWork asked) .cueTimeout) := by
  obtain ⟨x, after, progresses, settled, work_eq, others⟩ := p.fieldWork_timer asked h (w := .cueTimers) (by decide) rfl
    (by rw [phase]; intro v; cases v <;> simp [counts])
  have eds_eq : x.part.eds = p.eds := progresses.eds_eq (by simp [phase]) (by simp [phase])
  rw [work_eq]
  rw [phase] at others ⊢
  let y := x.work .cue .cueTimers
  let q := x.part.modEds Eds.cueTicked
  have expired_eq : (∃ d ∈ allDecks, q.cueExpired d = true) ↔ ∃ d, (p.modEds Eds.cueTicked).cueExpired d = true := by
    simp only [q, Part.cueExpired, Part.modEds_eds, eds_eq, mem_allDecks, true_and]
  have ticks : y.part = if ∃ d, (p.modEds Eds.cueTicked).cueExpired d = true then q.failEvent .cueTimeout else q := by
    have in_cue : x.part.eds.phase = .cue := eds_eq ▸ phase
    simp only [y, FieldCtx.work, Part.tickCueTimers, in_cue, if_true]
    exact (Part.eachJudgeCueTimer allDecks q).trans (by simp only [expired_eq])
  have quiet : y.part.Quiet := settled.quiet.work .cue .cueTimers
  have still : q.eds.Still := ⟨settled.running, by simp [q, Eds.cueTicked, eds_eq, phase], settled.guard⟩
  constructor
  · intro waits
    rw [if_neg waits] at ticks
    obtain ⟨last, -⟩ := Part.Settled.works (x := y) ⟨ticks ▸ still.running, ticks ▸ still.guard, quiet⟩ .cue after others
    rw [last.eds_eq (by rw [ticks]; simp [q, Eds.cueTicked, eds_eq, phase]) (ticks ▸ still.postroll), ticks]
    simp only [q, Part.modEds_eds, eds_eq]
  · intro expired
    rw [if_pos expired] at ticks
    have failed := q.failEvent_still .cueTimeout still
    obtain ⟨last, -⟩ := Part.Settled.works (x := y) ⟨ticks ▸ failed.running, ticks ▸ failed.guard, quiet⟩ .cue after others
    have fails : q.FailedAs y.part .cueTimeout := ticks ▸ q.failEvent_failedAs .cueTimeout
    refine (fails.progresses last).of_slots ?_ fun n => ?_
    · rw [← eds_eq]
      rfl
    · rw [Part.slot, Part.slot, ← eds_eq]
      rfl

/-- A timer runs out at a field start that finds it at 1 or less, before its deck has reached cue (R136). -/
theorem Part.cueExpired_ticked (p : Part) (d : DeckNo) (phase : p.eds.phase = .cue) :
    (p.modEds Eds.cueTicked).cueExpired d =
      (p.eds.cues.get d).any (fun c => c.state != .reached && decide (c.timer ≤ 1)) := by
  simp only [Part.cueExpired, Part.modEds_eds, Eds.cueTicked, phase, Table.get_map]
  cases p.eds.cues.get d with
  | none => rfl
  | some c =>
    obtain ⟨state, misses, timer⟩ := c
    have runs_out : (timer - 1 == 0) = decide (timer ≤ 1) := by
      rw [Bool.eq_iff_iff, beq_iff_eq, decide_eq_true_eq, Nat.sub_eq_zero_iff_le]
    cases state <;> simp [CueRecord.ticked, runs_out]

/-! ### POSTROLL (R145) -/

/-- In POSTROLL a field start counts, and ends the event where the count runs out. -/
theorem Part.fieldWork_postroll (p : Part) (asked : List FieldWork) (h : p.Settled) (phase : p.eds.phase = .postroll)
    {n : SlotNo} (active : p.eds.active = some n) :
    (1 < p.eds.postroll → (p.fieldWork asked).eds.postroll = p.eds.postroll - 1
      ∧ (p.fieldWork asked).eds.phase = .postroll ∧ (p.fieldWork asked).eds.active = some n)
    ∧ (p.eds.postroll ≤ 1 → (p.fieldWork asked).Ended n) := by
  obtain ⟨x, after, progresses, settled, work_eq, others⟩ := p.fieldWork_timer asked h (w := .postroll) (by decide) rfl
    (by rw [phase]; intro v; cases v <;> simp [counts])
  have in_postroll : x.part.eds.phase = .postroll := progresses.phase.trans phase
  have event : x.part.eds.active = some n := progresses.active.trans active
  have count : x.part.eds.postroll = p.eds.postroll := by rw [progresses.eds]
  rw [work_eq]
  rw [phase] at others ⊢
  let y := x.work .postroll .postroll
  let q := x.part.modEds fun e => { e with postroll := e.postroll - 1 }
  have ticks : y.part = if q.eds.postroll = 0 then q.endPostroll else q := by
    simp only [y, FieldCtx.work, Part.tickPostroll, in_postroll, if_true]
    rfl
  have counted : q.eds.postroll = p.eds.postroll - 1 := congrArg (· - 1) count
  have quiet : y.part.Quiet := settled.quiet.work .postroll .postroll
  constructor
  · intro more
    rw [if_neg (by omega)] at ticks
    obtain ⟨last, -⟩ := Part.Settled.works (x := y) ⟨ticks ▸ settled.running, ticks ▸ settled.guard, quiet⟩ .postroll after others
    refine ⟨?_, ?_, ?_⟩
    · rw [last.eds, ticks]
      exact counted
    · rw [last.phase, ticks]
      exact in_postroll
    · rw [last.active, ticks]
      exact event
  · intro done
    rw [if_pos (by omega)] at ticks
    have ended : y.part.Ended n := ticks ▸ q.endPostroll_ended event
    obtain ⟨last, -⟩ := Part.Settled.works (x := y) ⟨ended.still.running, ended.still.guard, quiet⟩ .postroll after others
    exact ended.congr (last.slot n) (last.notices _)
      ⟨last.phase ▸ ended.still.running, last.phase ▸ ended.still.postroll, last.guard.trans ended.still.guard⟩

/-! ### RECORD (R149) -/

/-- The engine with the guard's count of one field start. -/
def Eds.guardTicked (e : Eds) : Eds := { e with guardCount := min 60 (e.guardCount + 1) }

/-- The work of a field start in RECORD, short of the out-point, is the guard's between work that moves no event. -/
theorem Part.fieldWork_guard (p : Part) (asked : List FieldWork) (h : p.Recording) (quiet : p.Quiet)
    (unhurried : ∀ d, p.Unhurried d) :
    ∃ (x : FieldCtx) (after : List FieldWork), p.Progresses x.part ∧ x.part.Recording ∧ x.part.Quiet
      ∧ p.fieldWork asked = (after.foldl (FieldCtx.work .record) (x.work .record .guard)).part
      ∧ .guard ∉ after ∧ (after.map FieldWork.piece).Nodup ∧ ∀ d ∈ advancedBy after, x.part.Unhurried d := by
  obtain ⟨before, after, split, early, late⟩ := workOrder_split asked (w := .guard) (by decide) rfl
  have nodup := (workOrder_spec asked).1
  rw [split] at nodup
  have decks : (advancedBy before ++ advancedBy after).Nodup := by
    have all := advancedBy_nodup nodup
    rw [advancedBy, List.filterMap_append] at all
    exact all
  rw [List.map_append, List.map_cons] at nodup
  obtain ⟨nodup_before, nodup_rest, -⟩ := List.nodup_append.1 nodup
  obtain ⟨coasts, still_quiet⟩ := FieldCtx.works_coast before { part := p, advanced := [], held := [] } h quiet early
    nodup_before fun d _ => unhurried d
  refine ⟨_, after, coasts.progresses, h.coasts coasts, still_quiet, ?_, late, (List.nodup_cons.1 nodup_rest).2, ?_⟩
  · rw [Part.fieldWork, split, List.foldl_append, List.foldl_cons, h.phase]
  · exact fun d later => (unhurried d).coasts coasts fun earlier =>
      (List.nodup_append.1 decks).2.2 d earlier d later rfl

theorem Part.tripGuard_still (p : Part) (h : p.eds.active.isSome = true) : p.tripGuard.eds.Still := by
  obtain ⟨n, active⟩ := Option.isSome_iff_exists.1 h
  simp only [Part.tripGuard, Part.failEvent_eds, Part.raise_eds, Eds.failed, active]
  exact Eds.idled_still _ _

/-- In RECORD, short of the out-point, a field start counts the running guard, which trips at its limit. -/
theorem Part.fieldWork_record (p : Part) (asked : List FieldWork) (h : p.Recording) (quiet : p.Quiet)
    (runs : p.eds.guardRunning = true) (unhurried : ∀ d, p.Unhurried d) :
    (min 60 (p.eds.guardCount + 1) < p.eds.guardLimit →
      (p.fieldWork asked).eds = { p.eds.guardTicked with progress := (p.fieldWork asked).eds.progress }
      ∧ p.eds.progress ≤ (p.fieldWork asked).eds.progress)
    ∧ (p.eds.guardLimit ≤ min 60 (p.eds.guardCount + 1) → p.eds.active.isSome = true →
      p.FailedAs (p.fieldWork asked) .refLost ∧ (p.fieldWork asked).noticeSet .guardTrip = true) := by
  obtain ⟨x, after, progresses, recording, still_quiet, work_eq, no_guard, nodup, later⟩ :=
    p.fieldWork_guard asked h quiet unhurried
  let q := x.part.modEds Eds.guardTicked
  have eds_eq : q.eds = { p.eds.guardTicked with progress := x.part.eds.progress } := by
    rw [show q.eds = x.part.eds.guardTicked from rfl, progresses.eds]
    rfl
  have ticks : (x.work .record .guard).part =
      if p.eds.guardLimit ≤ min 60 (p.eds.guardCount + 1) then q.tripGuard else q := by
    have running : x.part.eds.guardRunning = true := progresses.guard.trans runs
    have due : q.guardDue = decide (p.eds.guardLimit ≤ min 60 (p.eds.guardCount + 1)) := by
      simp only [Part.guardDue, eds_eq, Eds.guardTicked, runs, Bool.true_and]
    have judges : (x.work .record .guard).part = if q.guardDue = true then q.tripGuard else q := by
      simp only [FieldCtx.work, Part.tickGuard, running, if_true]
      rfl
    simpa only [due, decide_eq_true_eq] using judges
  have quiet_after : (x.work .record .guard).part.Quiet := still_quiet.work .record .guard
  rw [work_eq]
  generalize x.work .record .guard = y at ticks quiet_after ⊢
  constructor
  · intro below
    rw [if_neg (Nat.not_le.2 below)] at ticks
    have recording_y : y.part.Recording := ticks ▸ ⟨recording.phase, recording.pending⟩
    obtain ⟨last, -⟩ := FieldCtx.works_coast after y recording_y quiet_after no_guard nodup fun d mem =>
      ticks ▸ ⟨(later d mem).young, (later d mem).short⟩
    refine ⟨last.progresses.eds.trans ?_, progresses.grows.trans (le_trans ?_ last.progresses.grows)⟩
    · rw [ticks, eds_eq]
    · rw [ticks]
      exact le_rfl
  · intro limit event
    rw [if_pos limit] at ticks
    have active_eq : q.eds.active = p.eds.active := by rw [eds_eq]; rfl
    have slot_eq : ∀ n, q.slot n = p.slot n := fun n => by rw [Part.slot, eds_eq]; rfl
    have fails : p.FailedAs y.part .refLost := ticks ▸ q.tripGuard_failedAs.of_slots active_eq slot_eq
    have trips : y.part.noticeSet .guardTrip = true := by
      rw [ticks, Part.tripGuard_noticeSet]
      rfl
    have still : y.part.eds.Still := ticks ▸ q.tripGuard_still (active_eq ▸ event)
    obtain ⟨last, -⟩ := Part.Settled.works (x := y) ⟨still.running, still.guard, quiet_after⟩ .record after
      fun v _ => by cases v <;> rfl
    exact ⟨fails.progresses last, last.notices _ trips⟩

/-- Settles O6: the opening of the field, and in each phase the work cut at the piece that counts there. -/
theorem fieldStartCounts : Obligations.FieldStartCounts := by
  intro s pins order not_pending r t e c quiet counted tick expired
  let o := s.part.opened pins
  have studio : o.studio = _ := s.part.opened_studio pins
  have aside : o.aside = _ := s.part.opened_aside pins
  have eds_eq : o.eds = e := congrArg (fun x : Pku × Eds × Tcu × Table Deck 4 × Chu => x.2.1) studio
  have pku_eq : o.pku = s.part.pku.opensField r.opensField := congrArg Prod.fst studio
  have deck_eq : ∀ d, o.deck d = s.part.deck d := fun d =>
    congrArg (fun x : Pku × Eds × Tcu × Table Deck 4 × Chu => x.2.2.2.1.get d) studio
  have chu_eq : o.chu = s.part.chu := congrArg (fun x : Pku × Eds × Tcu × Table Deck 4 × Chu => x.2.2.2.2) studio
  have rtu_eq : o.rtu = r.opensField := congrArg Prod.fst aside
  have quiet_eq : quiet → o.Quiet := fun h g =>
    (congrArg (fun x : Rtu × Table Siu 3 × Gtu => (x.2.2.gpis.get g).role) aside).trans (h g)
  obtain ⟨std_eq, lock_eq⟩ := r.opensField_kept
  have counting_eq : o.counting = c := by
    rw [Part.counting, rtu_eq, std_eq]
    exact congrArg (fun x : Pku × Eds × Tcu × Table Deck 4 × Chu => countingOf r.std x.2.2.1.dfMode) studio
  have slot_eq : ∀ n, o.slot n = s.part.slot n := fun n => by rw [Part.slot, eds_eq]; rfl
  have final_rtu : (o.fieldWork order).rtu = r.opensField := (o.fieldWork_rtu order).trans rtu_eq
  have final_pku := Part.unnoticed_of_ledger (o.fieldWork_ledger order)
  rw [pku_eq] at final_pku
  refine ⟨o.fieldWork order, ?_, fun follows => ?_, fun x owed => ?_, ?_, ?_, ?_, ?_, ?_, fun phase guard still => ?_,
    fun phase guard still n active => ?_, fun phase guard still slow => ?_⟩
  · exact congrArg (ran s) (s.part.fieldStart_eq pins order not_pending)
  · rw [final_rtu, r.opensField_follows follows]
    rfl
  · rw [final_rtu, r.opensField_owed owed]
    rfl
  · exact congrArg Pku.toWrite final_pku
  · exact congrArg Pku.building final_pku
  · exact (congrArg Pku.openedLocked final_pku).trans (by rw [← lock_eq]; rfl)
  · refine (congrArg Pku.inUse final_pku).trans ?_
    show s.part.pku.linesFor r.opensField.std = _
    rw [std_eq]
    rfl
  · rw [o.fieldWork_sius order]
    exact congrArg (fun x : Rtu × Table Siu 3 × Gtu => x.2.1) aside
  · have in_cue : o.eds.phase = .cue := eds_eq ▸ phase
    obtain ⟨waits, fails⟩ := o.fieldWork_cue order ⟨by rw [in_cue]; rfl, eds_eq ▸ guard, quiet_eq still⟩ in_cue
    have expired_iff : (∃ d, (o.modEds Eds.cueTicked).cueExpired d = true) ↔ expired := by
      simp only [o.cueExpired_ticked _ in_cue, eds_eq, expired]
    have tick_eq : CueRecord.ticked = tick := by
      funext k
      obtain ⟨state, misses, timer⟩ := k
      cases state <;> rfl
    rw [expired_iff] at waits fails
    refine ⟨fun short => ?_, fun late n active => ?_⟩
    · rw [waits short, eds_eq, Eds.cueTicked, tick_eq]
    · rw [← slot_eq n]
      exact fails late n (eds_eq ▸ active)
  · have in_postroll : o.eds.phase = .postroll := eds_eq ▸ phase
    obtain ⟨more, done⟩ := o.fieldWork_postroll order ⟨by rw [in_postroll]; rfl, eds_eq ▸ guard, quiet_eq still⟩ in_postroll
      (eds_eq ▸ active)
    rw [eds_eq] at more done
    exact ⟨more, fun last => ⟨(done last).state, (done last).reason, (done last).notice⟩⟩
  · have unhurried : ∀ d, o.Unhurried d := by
      intro d
      obtain ⟨young, -, short⟩ := slow d
      constructor
      · rw [deck_eq]
        exact young
      · rw [deck_eq, counting_eq, eds_eq]
        exact short
    obtain ⟨counts, trips⟩ := o.fieldWork_record order ⟨eds_eq ▸ phase, fun d => chu_eq ▸ (slow d).2.1⟩ (quiet_eq still)
      (eds_eq ▸ guard) unhurried
    rw [eds_eq] at counts trips
    refine ⟨counts, fun limit n active => ?_⟩
    obtain ⟨fails, trip⟩ := trips limit (by simp [show e.active = some n from active])
    obtain ⟨slot, idle, -, failed⟩ := fails n (eds_eq ▸ active)
    rw [slot_eq n] at slot
    exact ⟨slot, idle, trip, failed⟩

end Sys2Proof.Machine
end

section
/-! ## What every command answers (O1, O4)

A host command ends as `dispatched` with its owner's effect and answer; an event ends as `ran` with its effect. So no command
stops and none touches the queue, and a host command brings one reply. -/

namespace Sys2Proof.Machine

open Sys2Proof

/-! ### What an owner returns for a host command (R22, R23, R75) -/

/-- What an owner returns for a host command: no reply of its own in the list, and with a refusal the part as it was but
for a mark that an arm popped and the answer reports. -/
structure Part.Returns (p : Part) (r : Part × Answer) : Prop where
  building : r.1.pku.building = p.pku.building
  refused : r.2.result ∈ [Result.badValue, .busy, .state, .noMark] →
    ∃ left : List Mark, r.1 = { p with tcu := { p.tcu with marks := left } }
      ∧ (left = p.tcu.marks ∨ (left = p.tcu.marks.tail ∧ r.2.notRestored = true))

namespace Part.Returns

/-- An owner that changes nothing may answer anything. -/
theorem unchanged (p : Part) (a : Answer) : p.Returns (p, a) := ⟨rfl, fun _ => ⟨p.tcu.marks, rfl, .inl rfl⟩⟩

/-- A command that is taken may change anything but the list of replies. -/
theorem accepted {p q : Part} {a : Answer} (building : q.pku.building = p.pku.building) (result : a.result = .accepted) :
    p.Returns (q, a) :=
  ⟨building, fun h => absurd h (by rw [result]; decide)⟩

/-- As `accepted`, with tuning operands that may be clamped (R24). -/
theorem taken {p q : Part} (ts : List Tuning) (n : Bool) (building : q.pku.building = p.pku.building) :
    p.Returns (q, { Answer.taken ts with normalised := n }) := by
  refine ⟨building, fun h => absurd h ?_⟩
  show (Answer.taken ts).result ∉ _
  rw [Answer.taken_result]
  split <;> decide

end Part.Returns

theorem Part.building_of_ledger {p q : Part} (h : q.ledger = p.ledger) : q.pku.building = p.pku.building :=
  (congrArg Pku.building (Part.unnoticed_of_ledger h) : q.pku.unnoticed.building = p.pku.unnoticed.building)

/-- The marks that step 4 of the arm validation leaves: the top one is popped for MARK (R126). -/
theorem resolveRecordIn_marks (c : Counting) (marks : List Mark) (e : EventRecord) :
    (resolveRecordIn c marks e).2 = if e.recordIn = none then marks.tail else marks := by
  unfold resolveRecordIn
  cases e.recordIn with
  | some l => dsimp only; split <;> rfl
  | none => cases marks <;> rfl

theorem armFromStep4_marks (c : Counting) (marks : List Mark) (d : DeckNo) (e : EventRecord) :
    (armFromStep4 c marks d e).marks = if e.recordIn = none then marks.tail else marks := by
  rw [← resolveRecordIn_marks c marks e]
  unfold armFromStep4
  split <;> simp_all

/-- The arm validation leaves the mark stack, or the stack without its top. -/
theorem Part.validateArm_marks (p : Part) (e : EventRecord) :
    (p.validateArm e).marks = p.tcu.marks ∨ (p.validateArm e).marks = p.tcu.marks.tail := by
  unfold Part.validateArm
  (repeat' split) <;> try exact .inl rfl
  rw [armFromStep4_marks]
  split
  · exact .inr rfl
  · exact .inl rfl

/-- A refused arm reports the mark it popped (R23, R75). -/
theorem Part.armEvent_returns (p : Part) (n : SlotNo) (e : EventRecord) : p.Returns (p.armEvent n e) := by
  unfold Part.armEvent
  extract_lets v q
  split
  · refine ⟨rfl, fun _ => ⟨v.marks, rfl, ?_⟩⟩
    rcases p.validateArm_marks e with same | popped
    · exact .inl same
    · cases stack : p.tcu.marks with
      | nil => exact .inl (popped.trans (by rw [stack]; rfl))
      | cons m rest =>
        have left_eq : v.marks = rest := popped.trans (by rw [stack]; rfl)
        exact .inr ⟨left_eq, by simp [left_eq]⟩
  · exact .accepted rfl rfl

theorem Part.armSlot_returns (p : Part) (n : SlotNo) : p.Returns (p.armSlot n) := by
  unfold Part.armSlot
  split
  case h_5 => exact p.armEvent_returns n _
  all_goals exact .unchanged _ _

theorem Part.startList_building (p : Part) (n : SlotNo) : (p.startList n).pku.building = p.pku.building :=
  Part.building_of_ledger (by simp [Part.startList])

theorem Part.runList_returns (p : Part) (n : SlotNo) : p.Returns (p.runList n) := by
  unfold Part.runList
  split
  · exact .unchanged _ _
  · split
    · exact .unchanged _ _
    · exact .accepted (p.startList_building n) rfl
    · have armed := p.armSlot_returns n
      split
      next q a made =>
        rw [made] at armed
        split
        · next done => exact .accepted ((q.startList_building n).trans armed.building) done
        · exact armed

theorem Part.askAssign_returns (p : Part) (d : DeckNo) (role : Role) (input : Option Input) :
    p.Returns (p.askAssign d role input) := by
  unfold Part.askAssign
  split
  · exact .unchanged _ _
  · split
    · exact .unchanged _ _
    · split
      · exact .unchanged _ _
      · unfold Part.assignDeck
        extract_lets old recorder q r
        exact .accepted (show r.pku.building = _ by simp only [r]; split <;> rfl) rfl

theorem Part.hostMix_returns (p : Part) (f : Mep → Mep) (ts : List Tuning) : p.Returns (p.hostMix f (.taken ts)) := by
  unfold Part.hostMix
  split
  · exact .taken ts (Answer.taken ts).normalised rfl
  · exact .unchanged _ _

theorem Part.configureTimecode_building (p : Part) (df : Bool) (f : DeckNo → Preference) :
    (p.configureTimecode df f).pku.building = p.pku.building := by
  have stored : (p.setPreferences f).ledger = p.ledger :=
    Part.each_keeps Part.ledger _ (fun d q => by simp) _ _
  apply Part.building_of_ledger
  unfold Part.configureTimecode
  dsimp only
  split
  · exact stored
  · simpa [Part.changeDfMode] using stored

theorem Part.pushMark_building (p : Part) (m : Mark) : (p.pushMark m).pku.building = p.pku.building := by
  unfold Part.pushMark
  dsimp only
  split <;> rfl

/-! ### Every host command -/

/-- A host command of this kind at this offset ends with what its owner returns. -/
def State.Answers (s : State) (kind off : Nat) (o : Host.Outcome State Fault Refusal) : Prop :=
  ∃ r, o = dispatched s kind off r ∧ s.part.Returns r

namespace State.Answers

variable {s : State} {kind off : Nat}

theorem returned {r : Part × Answer} (h : s.part.Returns r) : s.Answers kind off (dispatched s kind off r) := ⟨r, rfl, h⟩

theorem refused (a : Answer) : s.Answers kind off (dispatched s kind off (s.part, a)) := .returned (.unchanged _ a)

theorem accepted {q : Part} {a : Answer} (building : q.pku.building = s.part.pku.building) (result : a.result = .accepted) :
    s.Answers kind off (dispatched s kind off (q, a)) :=
  .returned (.accepted building result)

theorem taken {q : Part} (ts : List Tuning) (building : q.pku.building = s.part.pku.building) :
    s.Answers kind off (dispatched s kind off (q, .taken ts)) :=
  .returned (.taken ts (Answer.taken ts).normalised building)

end State.Answers

theorem execResetPartFull_answers (off scope : Nat) (s : State) : s.Answers 0x13 off (execResetPartFull off scope s) := by
  unfold execResetPartFull
  split
  · unfold Part.askFullReset
    split
    · exact .refused _
    · exact .accepted rfl rfl
  · exact .accepted (Part.building_of_ledger (Part.resetEngine_ledger _)) rfl
  · exact .refused _

theorem execSubstPolicy_answers (off input policy : Nat) (s : State) :
    s.Answers 0x21 off (execSubstPolicy off input policy s) := by
  unfold execSubstPolicy
  split
  · exact .refused _
  · exact .refused _
  · split
    · exact .accepted rfl rfl
    · exact .refused _

theorem execTcConfig_answers (off df a b c d : Nat) (s : State) : s.Answers 0x30 off (execTcConfig off df a b c d s) := by
  unfold execTcConfig
  split
  · split
    · exact .refused _
    · exact .accepted (s.part.configureTimecode_building _ _) rfl
  · exact .refused _

theorem execMarkPush_answers (off deck : Nat) (x : LabelChoice) (s : State) :
    s.Answers 0x31 off (execMarkPush off deck x s) := by
  unfold execMarkPush
  split
  · exact .refused _
  · split
    · unfold Part.pushLabel
      split
      · exact .refused _
      · exact .accepted (s.part.pushMark_building _) rfl
    · unfold Part.pushNow
      split
      · exact .accepted (s.part.pushMark_building _) rfl
      · exact .refused _
    · exact .refused _

theorem execDeckDirect_answers (off deck command : Nat) (v : Int) (cue : RawLabel) (s : State) :
    s.Answers 0x43 off (execDeckDirect off deck command v cue s) := by
  unfold execDeckDirect
  split
  · unfold Part.askDirect
    split
    · exact .refused _
    · split
      · exact .refused _
      · exact .accepted rfl rfl
  · exact .refused _

theorem execDeckParams_answers (off deck a b c d e f : Nat) (s : State) :
    s.Answers 0x41 off (execDeckParams off deck a b c d e f s) := by
  unfold execDeckParams
  split
  · exact .refused _
  · split
    · exact .refused _
    · exact .taken _ rfl

theorem execEventLoad_answers (off : Nat) (ops : EventOperands) (s : State) :
    s.Answers 0x50 off (execEventLoad off ops s) := by
  unfold execEventLoad
  split
  · unfold Part.loadEvent
    split
    · exact .refused _
    · exact .returned (.taken _ _ rfl)
  · exact .refused _

theorem execEventClear_answers (off slot : Nat) (s : State) : s.Answers 0x51 off (execEventClear off slot s) := by
  unfold execEventClear
  split
  · exact .refused _
  · unfold Part.clearSlot
    split
    · exact .refused _
    · exact .accepted rfl rfl

theorem execAbort_answers (off : Nat) (s : State) : s.Answers 0x5A off (execAbort off s) := by
  unfold execAbort
  split
  · exact .refused _
  · exact .accepted (Part.building_of_ledger (Part.abortEvent_ledger _ _)) rfl

theorem execEndOpen_answers (off : Nat) (s : State) : s.Answers 0x5C off (execEndOpen off s) := by
  unfold execEndOpen
  split
  · exact .accepted (Part.building_of_ledger (Part.endOpenEvent_ledger _)) rfl
  · exact .refused _

theorem execPatternLoad_answers (off n shape x y rev : Nat) (s : State) :
    s.Answers 0x63 off (execPatternLoad off n shape x y rev s) := by
  unfold execPatternLoad
  dsimp only
  split
  · split
    · exact .refused _
    · exact .taken _ rfl
  · exact .refused _

theorem execCurveLoad_answers (off n : Nat) (points : List Nat) (s : State) :
    s.Answers 0x64 off (execCurveLoad off n points s) := by
  unfold execCurveLoad
  split
  · exact .refused _
  · exact .refused _
  · split
    · exact .refused _
    · exact .taken _ rfl

/-- Every host command is dispatched with what its owner returns. -/
theorem exec_answers {i : Instr} {off kind : Nat} {payload : List Byte} (packet : hostPacket i = some (off, kind, payload))
    (s : State) : s.Answers kind off (exec i s) := by
  cases i with
  | ctrlLines => cases packet; exact .taken _ rfl
  | clearNotices =>
    cases packet
    simp only [exec, execClearNotices]
    split
    · exact .refused _
    · exact .accepted rfl rfl
  | noticeMask =>
    cases packet
    simp only [exec, execNoticeMask]
    split
    · exact .refused _
    · exact .accepted rfl rfl
  | resetPartFull off scope => cases packet; exact execResetPartFull_answers off scope s
  | resetPartEngine => cases packet; exact .accepted (Part.building_of_ledger (Part.resetEngine_ledger _)) rfl
  | inputConfig =>
    cases packet
    simp only [exec, execInputConfig]
    split
    · exact .refused _
    · exact .taken _ rfl
  | substPolicy off input policy => cases packet; exact execSubstPolicy_answers off input policy s
  | tcConfig off df a b c d => cases packet; exact execTcConfig_answers off df a b c d s
  | markPush off deck x => cases packet; exact execMarkPush_answers off deck x s
  | markPop =>
    cases packet
    simp only [exec, execMarkPop]
    split
    · exact .refused _
    · exact .accepted rfl rfl
  | markClear => cases packet; exact .accepted rfl rfl
  | deckAssign =>
    cases packet
    simp only [exec, execDeckAssign]
    split
    · exact .returned (Part.askAssign_returns _ _ _ _)
    · exact .refused _
  | deckParams off deck a b c d e f => cases packet; exact execDeckParams_answers off deck a b c d e f s
  | deckRead =>
    cases packet
    simp only [exec, execDeckRead]
    split <;> exact .refused _
  | deckDirect off deck command v cue => cases packet; exact execDeckDirect_answers off deck command v cue s
  | chaseParams =>
    cases packet
    simp only [exec, execChaseParams]
    split
    · exact .refused _
    · exact .taken _ rfl
  | eventLoad off ops => cases packet; exact execEventLoad_answers off ops s
  | eventClear off slot => cases packet; exact execEventClear_answers off slot s
  | eventRead =>
    cases packet
    simp only [exec, execEventRead]
    split <;> exact .refused _
  | eventArm =>
    cases packet
    simp only [exec, execEventArm]
    split
    · exact .refused _
    · exact .returned (Part.armSlot_returns _ _)
  | listRun =>
    cases packet
    simp only [exec, execListRun]
    split
    · exact .refused _
    · exact .returned (Part.runList_returns _ _)
  | listStop =>
    cases packet
    simp only [exec, execListStop]
    split
    · exact .refused _
    · exact .accepted rfl rfl
  | abort off => cases packet; exact execAbort_answers off s
  | release => cases packet; exact .accepted (Part.building_of_ledger (Part.takeRelease_ledger _)) rfl
  | endOpen off => cases packet; exact execEndOpen_answers off s
  | guardLimit => cases packet; exact .taken _ rfl
  | xptSet =>
    cases packet
    simp only [exec, execXptSet]
    split
    · exact .returned (Part.hostMix_returns _ _ [])
    · exact .refused _
  | keyParams =>
    cases packet
    simp only [exec, execKeyParams]
    split
    · exact .returned (Part.hostMix_returns _ _ _)
    · exact .refused _
  | autoTake =>
    cases packet
    simp only [exec, execAutoTake]
    split
    · exact .returned (Part.hostMix_returns _ _ _)
    · exact .refused _
  | patternLoad off n shape x y rev => cases packet; exact execPatternLoad_answers off n shape x y rev s
  | curveLoad off n points => cases packet; exact execCurveLoad_answers off n points s
  | gpiConfig =>
    cases packet
    simp only [exec, execGpiConfig]
    split
    · exact .taken _ rfl
    · exact .refused _
  | tallyConfig =>
    cases packet
    simp only [exec, execTallyConfig]
    split
    · exact .accepted rfl rfl
    · exact .refused _
  | _ => cases packet

/-- Settles O4: the reply is that of the answer, and a refusal is what its owner returned. -/
theorem oneReplyPerHostCommand : Obligations.OneReplyPerHostCommand := by
  intro i s t off kind payload packet leads
  obtain ⟨⟨q, a⟩, ends, returns⟩ := exec_answers packet s
  obtain rfl : { s with part := q.reply kind off a } = t := by simpa [ends, dispatched_eq] using leads
  refine ⟨replyOf kind off a, ?_, rfl, rfl, fun refusal => ?_⟩
  · rw [State.withPart_part, q.reply_building, returns.building]
  · obtain ⟨left, rfl, stack⟩ := returns.refused refusal
    exact ⟨left, rfl, stack⟩

/-! ### Every command and event -/

/-- The command leads to a next state and leaves the queue alone. -/
def State.Leads (s : State) (o : Host.Outcome State Fault Refusal) : Prop :=
  ∃ q : Part, o = .next { part := q, pending := s.pending }

namespace State.Leads

theorem ran {s : State} (p : Part) : s.Leads (Machine.ran s p) := ⟨p, rfl⟩

theorem answered {s : State} (k o : Nat) (r : Part × Answer) : s.Leads (dispatched s k o r) := ⟨_, rfl⟩

end State.Leads

/-- No command and no event stops or touches the queue. -/
theorem exec_leads (i : Instr) (s : State) : s.Leads (exec i s) := by
  cases packet : hostPacket i with
  | some x =>
    obtain ⟨r, ends, -⟩ := exec_answers (off := x.1) (kind := x.2.1) (payload := x.2.2) packet s
    exact ends ▸ .answered _ _ r
  | none =>
    cases i with
    | packetBadFormat | packetUnknownKind | packetWrongLength => exact .answered _ _ _
    | inputFieldWellFormed | storeSlip | deckReplyGood | deckReplyBad =>
      simp only [exec, execInputFieldWellFormed, execStoreSlip, execDeckReplyGood, execDeckReplyBad]
      split <;> exact .ran _
    | powerOn | resetLine | fieldStart | refFieldWellFormed | refFieldBad | silenceJudgement | refFieldOpened
      | statusBlockWrite | replyRecordWrite | resetPartFullApply | inputFieldReference | inputFieldBad | inputSilenceBad
      | inputNoSignal | vitcReading | positionStale | slotLine | frameSendEnd | deckTimeout | cueTimeout | rollPlayDue
      | postrollEnd | guardTrip | activeSetTake | autoTakeEnd | gpiAcceptedEdge => exact .ran _
    | _ => cases packet

/-- Settles O1: the step takes the front command by definition, and no command stops. -/
theorem stepRunsTheFrontCommand : Obligations.StepRunsTheFrontCommand :=
  fun p c rest => ⟨rfl, exec_leads c { part := p, pending := rest }⟩

end Sys2Proof.Machine
end

section
/-! ## Laws: operands and answers

How a number operand is read back from its code, which numbers each structural operand accepts, and what clamping answers
(R23, R24). -/

namespace Sys2Proof.Machine

open Sys2Proof

/-! ### Codes read back -/

@[simp] theorem deckOf_val (d : DeckNo) : deckOf d.val = some d := by simp [deckOf]
@[simp] theorem slotOf_slot (n : SlotNo) : slotOf n.val = some n := by simp [slotOf]
@[simp] theorem patternOf_val (n : Fin 16) : patternOf n.val = some n := by simp [patternOf]
@[simp] theorem curveOf_val (n : Fin 4) : curveOf n.val = some n := by simp [curveOf]
@[simp] theorem inputOf_code (i : Input) : inputOf (inputCode i) = some i := by cases i <;> rfl
@[simp] theorem sourceOf_code (x : Source) : sourceOf x.code = some x := by cases x <;> rfl
@[simp] theorem switchOf_code (b : Bool) : switchOf (switchCode b) = some b := by cases b <;> rfl
@[simp] theorem transitionOf_code (k : Transition) : transitionOf k.code = some k := by cases k <;> rfl

/-! ### The numbers that a structural operand accepts -/

theorem deckOf_isSome (n : Nat) : (deckOf n).isSome = decide (n < 4) := by unfold deckOf; split <;> simp_all
theorem slotOf_isSome (n : Nat) : (slotOf n).isSome = decide (n < 64) := by unfold slotOf; split <;> simp_all
theorem patternOf_isSome (n : Nat) : (patternOf n).isSome = decide (n < 16) := by unfold patternOf; split <;> simp_all
theorem curveOf_isSome (n : Nat) : (curveOf n).isSome = decide (n < 4) := by unfold curveOf; split <;> simp_all
theorem lineOf_isSome (n : Nat) : (lineOf n).isSome = decide (n < 4) := by unfold lineOf; split <;> simp_all
theorem tracksOf_isSome (n : Nat) : (tracksOf n).isSome = decide (n < 16) := by unfold tracksOf; split <;> simp_all
theorem structuralOf_isSome (hi n : Nat) : (structuralOf hi n).isSome = decide (n < hi + 1) := by
  unfold structuralOf; split <;> simp <;> omega

/-- A code list of `hi` values accepts the numbers below `hi`. -/
theorem isSome_below {α : Type} {f : Nat → Option α} {hi : Nat} (listed : ∀ n < hi, (f n).isSome = true)
    (past : ∀ n, f (n + hi) = none) (n : Nat) : (f n).isSome = decide (n < hi) := by
  by_cases h : n < hi
  · simp [h, listed n h]
  · obtain ⟨m, rfl⟩ := Nat.exists_eq_add_of_le' (Nat.le_of_not_lt h)
    simp [past m]

theorem inputOf_isSome (n : Nat) : (inputOf n).isSome = decide (n < 3) := isSome_below (by decide) (fun _ => rfl) n
theorem videoInputOf_isSome (n : Nat) : (videoInputOf n).isSome = decide (n < 4) := isSome_below (by decide) (fun _ => rfl) n
theorem switchOf_isSome (n : Nat) : (switchOf n).isSome = decide (n < 2) := isSome_below (by decide) (fun _ => rfl) n
theorem policyOf_isSome (n : Nat) : (policyOf n).isSome = decide (n < 2) := isSome_below (by decide) (fun _ => rfl) n
theorem preferenceOf_isSome (n : Nat) : (preferenceOf n).isSome = decide (n < 2) := isSome_below (by decide) (fun _ => rfl) n
theorem roleOf_isSome (n : Nat) : (roleOf n).isSome = decide (n < 3) := isSome_below (by decide) (fun _ => rfl) n
theorem directOf_isSome (n : Nat) : (directOf n).isSome = decide (n < 9) := isSome_below (by decide) (fun _ => rfl) n
theorem kindOf_isSome (n : Nat) : (kindOf n).isSome = decide (n < 2) := isSome_below (by decide) (fun _ => rfl) n
theorem transitionOf_isSome (n : Nat) : (transitionOf n).isSome = decide (n < 3) := isSome_below (by decide) (fun _ => rfl) n
theorem holdOf_isSome (n : Nat) : (holdOf n).isSome = decide (n < 2) := isSome_below (by decide) (fun _ => rfl) n
theorem sourceOf_isSome (n : Nat) : (sourceOf n).isSome = decide (n < 5) := isSome_below (by decide) (fun _ => rfl) n
theorem shapeOf_isSome (n : Nat) : (shapeOf n).isSome = decide (n < 5) := isSome_below (by decide) (fun _ => rfl) n
theorem gpiRoleOf_isSome (n : Nat) : (gpiRoleOf n).isSome = decide (n < 4) := isSome_below (by decide) (fun _ => rfl) n
theorem edgeOf_isSome (n : Nat) : (edgeOf n).isSome = decide (n < 2) := isSome_below (by decide) (fun _ => rfl) n
theorem tallyRoleOf_isSome (n : Nat) : (tallyRoleOf n).isSome = decide (n < 7) := isSome_below (by decide) (fun _ => rfl) n
theorem loadableCurveOf_isSome (n : Nat) : (loadableCurveOf n).isSome = decide (1 ≤ n ∧ n < 4) := by
  unfold loadableCurveOf
  split <;> simp [curveOf_isSome] <;> omega

theorem storedLabelOf_isSome (c : Counting) (x : RawLabel) : (storedLabelOf c x).isSome = (readLabel c x).isSome := by
  unfold storedLabelOf
  split <;> simp_all

/-! ### Clamping -/

theorem clampTo_eq {lo hi : Nat} (h : lo ≤ hi) (v : Nat) : clampTo lo hi v = max lo (min hi v) := by
  unfold clampTo
  split
  · omega
  · split <;> omega

/-- An operand is listed as clamped exactly where it lies outside its range (R24). -/
theorem clampedNumbers_cons (t : Tuning) (ts : List Tuning) :
    clampedNumbers (t :: ts) = (if t.lo ≤ t.value ∧ t.value ≤ t.hi then [] else [t.number]) ++ clampedNumbers ts := by
  unfold clampedNumbers
  split
  · next inside => simp [clampTo_of_bounds inside.1 inside.2]
  · next outside =>
    have changed : clampTo t.lo t.hi t.value ≠ t.value := by
      unfold clampTo
      split
      · omega
      · split <;> omega
    simp [changed]

theorem clampedNumbers_nil : clampedNumbers [] = [] := rfl

theorem clampedNumbers_append (ts us : List Tuning) : clampedNumbers (ts ++ us) = clampedNumbers ts ++ clampedNumbers us := by
  simp [clampedNumbers]

/-- What a command with tuning operands answers (R24). -/
theorem Answer.taken_eq (ts : List Tuning) :
    Answer.taken ts =
      { result := if clampedNumbers ts = [] then .accepted else .clamped, clamped := clampedNumbers ts } := by
  unfold Answer.taken
  split <;> simp_all [Answer.accepted]

/-! ### The first check that fails -/

/-- The first bad operand is that of the first check that does not hold. -/
theorem firstBad_of_find {cs : List (Nat × Bool)} {x : Nat × Bool} (h : cs.find? (fun y => !y.2) = some x) :
    firstBad cs = some x.1 := by
  induction cs with
  | nil => cases h
  | cons c cs ih =>
    obtain ⟨n, ok⟩ := c
    cases ok
    · obtain rfl : (n, false) = x := by simpa using h
      rfl
    · exact ih (by simpa using h)

end Sys2Proof.Machine
end

section
/-! ## The commands of the packet unit (O14, O16, O17) -/

namespace Sys2Proof.Machine

open Sys2Proof

/-- Settles O14: each answer is the meaning's own. -/
theorem refusedPackets : Obligations.RefusedPackets := fun _ _ _ => ⟨rfl, rfl, rfl⟩

/-- The four operands of CTRL_LINES (Table 2-1). -/
def lineTunings (w30 s30 w25 s25 : Nat) : List Tuning :=
  [lineTuning 1 (Config.windowLine .sys30) w30, lineTuning 2 (Config.statusLine .sys30) s30,
    lineTuning 3 (Config.windowLine .sys25) w25, lineTuning 4 (Config.statusLine .sys25) s25]

theorem execCtrlLines_eq (off w30 s30 w25 s25 : Nat) (s : State) :
    execCtrlLines off w30 s30 w25 s25 s = dispatched s 0x10 off (s.part.modPku (fun k => { k with
      lines30 := { window := clampTo 10 17 w30, status := clampTo 10 11 s30 }
      lines25 := { window := clampTo 7 15 w25, status := clampTo 6 12 s25 } }), .taken (lineTunings w30 s30 w25 s25)) := rfl

/-- Settles O16: each setting is clamped into its range of Table 2-1, and listed where it lies outside it. -/
theorem lineSettingsStored : Obligations.LineSettingsStored := by
  intro s off w30 s30 w25 s25 bad answer
  have bad_eq : clampedNumbers (lineTunings w30 s30 w25 s25) = bad := by
    simp only [lineTunings, clampedNumbers_cons, clampedNumbers_nil, List.append_nil, bad, List.append_assoc]
    rfl
  have answer_eq : Answer.taken (lineTunings w30 s30 w25 s25) = answer := by
    rw [Answer.taken_eq, bad_eq]
    simp only [answer]
    split
    · next none_bad => rw [none_bad]
    · rfl
  rw [exec, execCtrlLines_eq, answer_eq, clampTo_eq (by decide), clampTo_eq (by decide), clampTo_eq (by decide),
    clampTo_eq (by decide)]
  rfl

/-! ### Notices (R31, R32) -/

theorem Notice.bit_lt (n : Notice) : n.bit < 18 := by cases n <;> decide

/-- Every bit of the notice set is that of a notice (Table 2-3). -/
theorem Notice.exists_bit {k : Nat} (h : k < 18) : ∃ n : Notice, n.bit = k := by
  have listed : ∀ k < 18, ∃ n ∈ [Notice.refLost, .refJump, .standardChange, .packetError, .inputWindow, .inputFormat,
      .deckTimeout, .deckAbsent, .deckLocal, .deckRefused, .markTaken, .markOverflow, .markRefused, .holdWaiting,
      .eventDone, .eventFailed, .listEnd, .guardTrip], n.bit = k := by decide
  obtain ⟨n, -, bit⟩ := listed k h
  exact ⟨n, bit⟩

theorem maskOf_of_lt {mask : Nat} (h : mask < 2 ^ 18) : maskOf mask = some (BitVec.ofNat 18 mask) := if_pos h

theorem maskOf_of_le {mask : Nat} (h : 2 ^ 18 ≤ mask) : maskOf mask = none := if_neg (Nat.not_lt_of_le h)

/-- A mask has a notice's bit where the number given has it. -/
theorem mask_getLsbD (mask : Nat) (n : Notice) : (BitVec.ofNat 18 mask).getLsbD n.bit = mask.testBit n.bit := by
  rw [BitVec.getLsbD_ofNat, decide_eq_true n.bit_lt, Bool.true_and]

/-- The alert condition: a notice both set and enabled (R32). -/
theorem Part.alert_iff (p : Part) :
    p.alert = true ↔ ∃ n : Notice, p.noticeSet n = true ∧ p.pku.mask.getLsbD n.bit = true := by
  have differs : p.alert = true ↔ ¬ p.pku.notices &&& p.pku.mask = 0#18 := by simp [Part.alert]
  rw [differs]
  constructor
  · intro some_bit
    by_contra none_both
    refine some_bit (BitVec.eq_of_getLsbD_eq fun k below => ?_)
    obtain ⟨n, rfl⟩ := Notice.exists_bit below
    simpa [Part.noticeSet] using fun set => Bool.eq_false_iff.mpr fun enabled => none_both ⟨n, set, enabled⟩
  · rintro ⟨n, set, enabled⟩ empty
    have both : (p.pku.notices &&& p.pku.mask).getLsbD n.bit = true := by
      rw [BitVec.getLsbD_and, enabled, Bool.and_true]
      exact set
    simp [empty] at both

/-- Settles O17: the masks bit by bit, and the alert condition notice by notice. -/
theorem noticesClearedAndMasked : Obligations.NoticesClearedAndMasked := by
  refine ⟨fun s off mask => ⟨fun inside => ?_, fun inside => ?_, fun above => ?_⟩, fun p => ⟨p.alert_iff, fun t role => ?_⟩⟩
  · simp only [exec, execClearNotices, maskOf_of_lt inside]
    refine ⟨_, rfl, fun n => ?_, ?_⟩
    · show (s.part.pku.notices &&& ~~~BitVec.ofNat 18 mask).getLsbD n.bit = _
      rw [BitVec.getLsbD_and, BitVec.getLsbD_not, mask_getLsbD, decide_eq_true n.bit_lt, Bool.true_and]
      rfl
    · rw [mask_getLsbD]
      rfl
  · simp only [exec, execNoticeMask, maskOf_of_lt inside]
    rfl
  · simp only [exec, execClearNotices, execNoticeMask, maskOf_of_le above]
    exact ⟨rfl, rfl⟩
  · rw [Part.tallyLit, role]
    rfl

end Sys2Proof.Machine
end

section
/-! ## Settings of one input, the mixer's commands and its tables (O21, O52, O54) -/

namespace Sys2Proof.Machine

open Sys2Proof

/-- Settles O21: the input's code is read back, and the owner of the preload decides the policy. -/
theorem inputSettings : Obligations.InputSettings := by
  intro s off policy a b c d i pol read lines answer
  refine ⟨?_, fun host => ?_, fun other => ?_⟩
  · simp only [exec, execInputConfig, inputOf_code]
    rfl
  · simp only [exec, execSubstPolicy, inputOf_code, read, host]
    rfl
  · simp only [exec, execSubstPolicy, inputOf_code, read, if_neg other]
    rfl

theorem Part.hostMix_host {p : Part} (h : p.mep.owner = .host) (f : Mep → Mep) (a : Answer) :
    p.hostMix f a = (p.modMep f, a) := if_pos h

theorem Part.hostMix_busy {p : Part} (h : p.mep.owner ≠ .host) (f : Mep → Mep) (a : Answer) :
    p.hostMix f a = (p, .busy) := if_neg h

/-- At its start the progress of a take is the first point of its curve (R165, R170). -/
theorem curveAt_zero (curve : Table Nat 17) : curveAt curve 0 = curve.get 0 := by
  simp [curveAt]

/-- The level that an auto-take begins with (R170, R171). -/
theorem Mep.takeLevel_begun (m : Mep) (kind : Transition) (duration : Nat) (curve : Fin 4) :
    let level := m.takeLevel { kind := kind, duration := duration, curve := curve, count := 0 }
    (kind = .cut → level = 1024) ∧ (kind = .mix → level = ((m.curves.get curve).get 0 + 2) / 4)
    ∧ (kind = .wipe → level = (m.curves.get curve).get 0) := by
  cases kind <;> simp [Mep.takeLevel, levelOf, curveAt_zero]

/-- Settles O52: the codes are read back, and the owner of the preload decides. -/
theorem hostMixerCommands : Obligations.HostMixerCommands := by
  intro s off b1 b2 pv fill on inv rev key clip gain duration soft kind pattern curve m xpt keyer auto crossed keyed begun
    keyAnswer takeAnswer started
  have xpt_eq : exec xpt s = dispatched s 0x60 off
      (s.part.hostMix (fun m => { m with preload := m.preload.withCrosspoint b1 b2 pv }) .accepted) := by
    simp only [xpt, exec, execXptSet, sourceOf_code]
  have keyer_eq : exec keyer s = dispatched s 0x61 off (s.part.hostMix (fun m => { m with
      preload := m.preload.withKey on fill key (clampTo 0 1023 clip) (clampTo 1 255 gain) inv }) keyAnswer) := by
    simp only [keyer, exec, execKeyParams, switchOf_code, sourceOf_code, inputOf_code]
    rfl
  have auto_eq : exec auto s = dispatched s 0x62 off
      (s.part.hostMix (fun m => m.startTake begun pattern (clampTo 0 255 soft) rev) takeAnswer) := by
    simp only [auto, exec, execAutoTake, switchOf_code, transitionOf_code, patternOf_val, curveOf_val]
    rfl
  rw [xpt_eq, keyer_eq, auto_eq]
  constructor
  · intro host
    simp only [Part.hostMix_host host]
    exact ⟨rfl, rfl, m.takeLevel begun, rfl, m.takeLevel_begun kind _ curve⟩
  · intro other
    simp only [Part.hostMix_busy other]
    exact ⟨rfl, rfl, rfl⟩

/-! ### The tables of patterns and curves (R166, R167) -/

theorem Part.patternInUse_iff (p : Part) (n : Fin 16) :
    p.patternInUse n = true ↔ (∃ e, p.activeEvent = some e ∧ e.pattern = n.val)
      ∨ (p.mep.owner = .auto ∧ p.mep.preload.pattern = n) := by
  simp [Part.patternInUse, Option.any_eq_true]

theorem Part.curveInUse_iff (p : Part) (n : Fin 4) :
    p.curveInUse n = true ↔ (∃ e, p.activeEvent = some e ∧ e.curve = n.val)
      ∨ (p.mep.owner = .auto ∧ ∃ t, p.mep.take = some t ∧ t.curve = n) := by
  simp [Part.curveInUse, Option.any_eq_true]

theorem pointsOf_cells (t : Table Nat 17) : pointsOf t.cells = some (t.map (clampTo 0 4096)) := dif_pos t.size_eq

theorem loadableCurveOf_val {n : Fin 4} (h : n ≠ 0) : loadableCurveOf n.val = some n := by
  have nonzero : n.val ≠ 0 := fun zero => h (Fin.ext zero)
  rw [loadableCurveOf, if_neg nonzero, curveOf_val]

/-- Settles O54: an entry in use is refused, and any other replaced. -/
theorem tablesLoaded : Obligations.TablesLoaded := by
  intro s off cx cy pattern shape sh rev curve points read m patternUsed curveUsed loaded patternAnswer curved curveAnswer
  have pattern_iff : s.part.patternInUse pattern = true ↔ patternUsed := s.part.patternInUse_iff pattern
  have curve_iff : s.part.curveInUse curve = true ↔ curveUsed := s.part.curveInUse_iff curve
  refine ⟨fun free => ?_, fun used => ?_, fun nonzero free => ?_, fun nonzero used => ?_, ?_⟩
  · simp only [exec, execPatternLoad, patternOf_val, read, switchOf_code, mt pattern_iff.mp free]
    rfl
  · simp only [exec, execPatternLoad, patternOf_val, read, switchOf_code, pattern_iff.mpr used]
    rfl
  · simp only [exec, execCurveLoad, pointsOf_cells, loadableCurveOf_val nonzero, mt curve_iff.mp free]
    rfl
  · simp only [exec, execCurveLoad, pointsOf_cells, loadableCurveOf_val nonzero, curve_iff.mpr used]
    rfl
  · simp only [exec, execCurveLoad, pointsOf_cells]
    rfl

end Sys2Proof.Machine
end

section
/-! ## The first structural operand out of its range (O18) -/

namespace Sys2Proof.Machine

open Sys2Proof

/-! ### Lists of checks -/

theorem firstBad_append (cs ds : List (Nat × Bool)) : firstBad (cs ++ ds) = (firstBad cs).or (firstBad ds) := by
  induction cs with
  | nil => rfl
  | cons c cs ih =>
    obtain ⟨n, ok⟩ := c
    cases ok
    · rfl
    · exact ih

theorem firstBad_append_congr {as bs cs ds : List (Nat × Bool)} (left : firstBad as = firstBad cs)
    (right : firstBad bs = firstBad ds) : firstBad (as ++ bs) = firstBad (cs ++ ds) := by
  rw [firstBad_append, left, right, firstBad_append]

/-- Two checks of one operand are one check. -/
theorem firstBad_both (n : Nat) (a b : Bool) (cs : List (Nat × Bool)) :
    firstBad ((n, a) :: (n, b) :: cs) = firstBad ((n, a && b) :: cs) := by
  cases a <;> rfl

theorem firstBad_cons_congr {cs ds : List (Nat × Bool)} (h : firstBad cs = firstBad ds) (c : Nat × Bool) :
    firstBad (c :: cs) = firstBad (c :: ds) := by
  rw [firstBad, h, firstBad]

/-- Checks that hold name no operand. -/
theorem firstBad_cons_of_true {n : Nat} {ok : Bool} (h : ok = true) (cs : List (Nat × Bool)) :
    firstBad ((n, ok) :: cs) = firstBad cs := by
  subst h
  rfl

/-- The command judges its structural operands by these checks before anything else: the first that fails is answered
BAD_VALUE with its number, and nothing else changes (R23). -/
structure State.Judges (s : State) (i : Instr) (kind off : Nat) (checks : List (Nat × Bool)) : Prop where
  refuses : ∀ n, firstBad checks = some n → exec i s = dispatched s kind off (s.part, .badValue n)

namespace State.Judges

variable {s : State} {i : Instr} {kind off : Nat}

/-- What the statement asks, for checks that name the same operand. -/
theorem judged {checks others : List (Nat × Bool)} (h : s.Judges i kind off checks) (same : firstBad others = firstBad checks)
    (x : Nat × Bool) (found : others.find? (fun y => !y.2) = some x) :
    exec i s = .next { s with part := s.part.reply kind off (.badValue x.1) } :=
  h.refuses x.1 (same ▸ firstBad_of_find found)

/-- A command with one structural operand. -/
theorem single {α : Type} {o : Option α} {n : Nat} (h : o = none → exec i s = dispatched s kind off (s.part, .badValue n)) :
    s.Judges i kind off [(n, o.isSome)] := by
  refine ⟨fun m bad => ?_⟩
  cases o with
  | some a => cases bad
  | none =>
    obtain rfl : n = m := by simpa [firstBad] using bad
    exact h rfl

end State.Judges

theorem not_lt_two {n : Nat} (zero : n ≠ 0) (one : n ≠ 1) : ¬ n < 2 := by omega

/-! ### The commands -/

theorem execInputConfig_judges (off a b c d e : Nat) (s : State) :
    s.Judges (.inputConfig off a b c d e) 0x20 off [(1, (inputOf a).isSome)] :=
  .single fun none => by simp only [exec, execInputConfig, none]

theorem execSubstPolicy_judges (off a b : Nat) (s : State) :
    s.Judges (.substPolicy off a b) 0x21 off [(1, (inputOf a).isSome), (2, (policyOf b).isSome)] := by
  refine ⟨fun n bad => ?_⟩
  simp only [exec, execSubstPolicy]
  split <;> simp_all [firstBad]

theorem execTcConfig_judges (off a b c d e : Nat) (s : State) :
    s.Judges (.tcConfig off a b c d e) 0x30 off [(1, (switchOf a).isSome), (2, (preferenceOf b).isSome),
      (3, (preferenceOf c).isSome), (4, (preferenceOf d).isSome), (5, (preferenceOf e).isSome)] := by
  refine ⟨fun n bad => ?_⟩
  simp only [exec, execTcConfig]
  split
  · simp_all [firstBad]
  · rw [bad]
    rfl

theorem execXptSet_judges (off a b c : Nat) (s : State) :
    s.Judges (.xptSet off a b c) 0x60 off [(1, (sourceOf a).isSome), (2, (sourceOf b).isSome), (3, (sourceOf c).isSome)] := by
  refine ⟨fun n bad => ?_⟩
  simp only [exec, execXptSet]
  split
  · simp_all [firstBad]
  · rw [bad]
    rfl

theorem execDeckAssign_judges (off a b c : Nat) (s : State) :
    s.Judges (.deckAssign off a b c) 0x40 off [(1, (deckOf a).isSome), (2, (roleOf b).isSome), (3, (videoInputOf c).isSome)] := by
  refine ⟨fun n bad => ?_⟩
  simp only [exec, execDeckAssign]
  split
  · simp_all [firstBad]
  · rw [bad]
    rfl

theorem execDeckParams_judges (off a b c d e f g : Nat) (s : State) :
    s.Judges (.deckParams off a b c d e f g) 0x41 off [(1, (deckOf a).isSome)] :=
  .single fun none => by simp only [exec, execDeckParams, none]

theorem execDeckRead_judges (off a : Nat) (s : State) : s.Judges (.deckRead off a) 0x42 off [(1, (deckOf a).isSome)] :=
  .single fun none => by simp only [exec, execDeckRead, none]

theorem execDeckDirect_judges (off a b : Nat) (v : Int) (cue : RawLabel) (s : State) :
    s.Judges (.deckDirect off a b v cue) 0x43 off [(1, (deckOf a).isSome), (2, (directOf b).isSome),
      (4, (readLabel s.part.counting cue).isSome)] := by
  refine ⟨fun n bad => ?_⟩
  simp only [exec, execDeckDirect]
  split
  · simp_all [firstBad]
  · rw [bad]
    rfl

theorem execEventClear_judges (off a : Nat) (s : State) : s.Judges (.eventClear off a) 0x51 off [(1, (slotOf a).isSome)] :=
  .single fun none => by simp only [exec, execEventClear, none]

theorem execEventRead_judges (off a : Nat) (s : State) : s.Judges (.eventRead off a) 0x52 off [(1, (slotOf a).isSome)] :=
  .single fun none => by simp only [exec, execEventRead, none]

theorem execEventArm_judges (off a : Nat) (s : State) : s.Judges (.eventArm off a) 0x53 off [(1, (slotOf a).isSome)] :=
  .single fun none => by simp only [exec, execEventArm, none]

theorem execListRun_judges (off a : Nat) (s : State) : s.Judges (.listRun off a) 0x58 off [(1, (slotOf a).isSome)] :=
  .single fun none => by simp only [exec, execListRun, none]

theorem execKeyParams_judges (off a b c d e f : Nat) (s : State) :
    s.Judges (.keyParams off a b c d e f) 0x61 off [(1, (switchOf a).isSome), (2, (sourceOf b).isSome),
      (3, (inputOf c).isSome), (6, (switchOf f).isSome)] := by
  refine ⟨fun n bad => ?_⟩
  simp only [exec, execKeyParams]
  split
  · simp_all [firstBad]
  · rw [bad]
    rfl

theorem execAutoTake_judges (off a b c d e f : Nat) (s : State) :
    s.Judges (.autoTake off a b c d e f) 0x62 off [(1, (transitionOf a).isSome), (3, (patternOf c).isSome),
      (4, (curveOf d).isSome), (6, (switchOf f).isSome)] := by
  refine ⟨fun n bad => ?_⟩
  simp only [exec, execAutoTake]
  split
  · simp_all [firstBad]
  · rw [bad]
    rfl

theorem execPatternLoad_judges (off a b c d e : Nat) (s : State) :
    s.Judges (.patternLoad off a b c d e) 0x63 off [(1, (patternOf a).isSome), (2, (shapeOf b).isSome),
      (5, (switchOf e).isSome)] := by
  refine ⟨fun n bad => ?_⟩
  simp only [exec, execPatternLoad]
  split
  · simp_all [firstBad]
  · rw [bad]
    rfl

theorem execCurveLoad_judges (off a : Nat) {points : List Nat} (length : points.length = 17) (s : State) :
    s.Judges (.curveLoad off a points) 0x64 off [(1, (loadableCurveOf a).isSome)] :=
  .single fun none => by simp only [exec, execCurveLoad, pointsOf, dif_pos length, none]

theorem execGpiConfig_judges (off a b c d e : Nat) (s : State) :
    s.Judges (.gpiConfig off a b c d e) 0x70 off [(1, (lineOf a).isSome), (2, (gpiRoleOf b).isSome),
      (3, (edgeOf c).isSome), (5, (deckOf e).isSome)] := by
  refine ⟨fun n bad => ?_⟩
  simp only [exec, execGpiConfig]
  split
  · simp_all [firstBad]
  · rw [bad]
    rfl

theorem execTallyConfig_judges (off a b : Nat) (s : State) :
    s.Judges (.tallyConfig off a b) 0x71 off [(1, (lineOf a).isSome), (2, (tallyRoleOf b).isSome)] := by
  refine ⟨fun n bad => ?_⟩
  simp only [exec, execTallyConfig]
  split
  · simp_all [firstBad]
  · rw [bad]
    rfl

/-- A label operand that may be a named alternative (R37). -/
theorem execMarkPush_judges (off a : Nat) (x : LabelChoice) (s : State) :
    s.Judges (.markPush off a x) 0x31 off
      [(1, (deckOf a).isSome), (2, decide (x.alt < 2)), (2, x.alt != 0 || (readLabel s.part.counting x.label).isSome)] := by
  refine ⟨fun n bad => ?_⟩
  simp only [exec, execMarkPush]
  split
  · next none => simp_all [firstBad]
  · next d some =>
    rw [firstBad_cons_of_true (by rw [some]; rfl)] at bad
    split
    · next label =>
      simp only [Part.pushLabel]
      split <;> simp_all [firstBad]
    · next present => simp [present, firstBad] at bad
    · next no_label no_present =>
      have outside : decide (x.alt < 2) = false := decide_eq_false (not_lt_two no_label no_present)
      rw [outside] at bad
      obtain rfl : 2 = n := by simpa [firstBad] using bad
      rfl

/-! ### EVENT_LOAD (R120) -/

theorem recordInOf_isSome (c : Counting) (x : LabelChoice) :
    (recordInOf c x).isSome = (decide (x.alt < 2) && (x.alt != 0 || (readLabel c x.label).isSome)) := by
  unfold recordInOf
  split
  · next label => simp [label, storedLabelOf_isSome]
  · next mark => simp [mark]
  · next no_label no_mark =>
    simp [not_lt_two no_label no_mark]

theorem lengthOf_isSome (x : NumberChoice) : (lengthOf x).isSome = decide (x.alt < 2) := by
  unfold lengthOf
  split
  · next value => simp [value]
  · next isOpen => simp [isOpen]
  · next no_value no_open =>
    simp [not_lt_two no_value no_open]

theorem keyOf_checked {c : Counting} {x : KeyOperands} {k : EventKey} (h : keyOf c x = some k) (present : x.presence = 1) :
    firstBad (keyChecks c x) = none := by
  simp only [keyOf, Option.bind_eq_bind, Option.bind_eq_some_iff] at h
  obtain ⟨deck, deck_eq, fill, fill_eq, input, input_eq, invert, invert_eq, on, on_eq, off, off_eq, -⟩ := h
  simp [keyChecks, present, firstBad, deck_eq, fill_eq, input_eq, invert_eq, on_eq, off_eq]

theorem optionalKeyOf_checked {c : Counting} {x : KeyOperands} {k : Option EventKey} (h : optionalKeyOf c x = some k) :
    firstBad (keyChecks c x) = none := by
  unfold optionalKeyOf at h
  split at h
  · next absent => simp [keyChecks, absent, firstBad]
  · next present =>
    obtain ⟨key, key_eq, -⟩ := Option.map_eq_some_iff.mp h
    exact keyOf_checked key_eq present
  · cases h

theorem eventSourceOf_checked {c : Counting} {x : SourceOperand} {y : EventSource} (h : eventSourceOf c x = some y) :
    (deckOf x.deck).isSome = true ∧ (storedLabelOf c x.play).isSome = true := by
  simp only [eventSourceOf, Option.bind_eq_bind, Option.bind_eq_some_iff] at h
  obtain ⟨deck, deck_eq, play, play_eq, -⟩ := h
  simp [deck_eq, play_eq]

theorem sourcesOf_checked {c : Counting} {x : EventOperands} {y : EventSource} {z : Option EventSource}
    (first : eventSourceOf c x.entry1 = some y) (second : secondSourceOf c x.sourceCount x.entry2 = some z) :
    firstBad (sourceChecks c x) = none := by
  obtain ⟨deck1, play1⟩ := eventSourceOf_checked first
  unfold secondSourceOf at second
  split at second
  · next one => simp [sourceChecks, one, firstBad, deck1, play1]
  · next two =>
    obtain ⟨entry, entry_eq, -⟩ := Option.map_eq_some_iff.mp second
    obtain ⟨deck2, play2⟩ := eventSourceOf_checked entry_eq
    simp [sourceChecks, two, firstBad, deck1, play1, deck2, play2]
  · cases second

/-- Operands that give an event record pass every structural check. -/
theorem eventRecordOf_checked {c : Counting} {x : EventOperands} {r : SlotNo × EventRecord} (h : eventRecordOf c x = some r) :
    firstBad (eventChecks c x) = none := by
  simp only [eventRecordOf, Option.bind_eq_bind, Option.bind_eq_some_iff] at h
  obtain ⟨slot, slot_eq, kind, kind_eq, recordIn, recordIn_eq, length, length_eq, transition, transition_eq, start, start_eq,
    reverse, reverse_eq, hold, hold_eq, tracks, tracks_eq, key, key_eq, source1, source1_eq, source2, source2_eq, -⟩ := h
  rw [eventChecks, firstBad_append, firstBad_append, optionalKeyOf_checked key_eq, sourcesOf_checked source1_eq source2_eq]
  simp [firstBad, slot_eq, kind_eq, recordIn_eq, length_eq, transition_eq, start_eq, reverse_eq, hold_eq, tracks_eq]

theorem execEventLoad_judges (off : Nat) (ops : EventOperands) (s : State) :
    s.Judges (.eventLoad off ops) 0x50 off (eventChecks s.part.counting ops) := by
  refine ⟨fun n bad => ?_⟩
  simp only [exec, execEventLoad]
  split
  · next read => simp [eventRecordOf_checked read] at bad
  · rw [bad]
    rfl

/-- The checks of the key, with the presence byte as a check of its own. -/
theorem firstBad_keyChecks (c : Counting) (k : KeyOperands) :
    firstBad ((16, decide (k.presence < 2)) :: (if k.presence = 1 then
      [(16, decide (k.fillDeck < 4)), (17, (readLabel c k.fillIn).isSome), (18, decide (k.keyInput < 3)),
        (21, decide (k.invert < 2)), (22, decide (k.onOffset < 2592000)), (23, decide (k.offOffset < 2592000))] else []))
      = firstBad (keyChecks c k) := by
  obtain absent | present | other : k.presence = 0 ∨ k.presence = 1 ∨ 2 ≤ k.presence := by omega
  · simp [keyChecks, absent, firstBad]
  · simp only [keyChecks, present, if_true, deckOf_isSome, storedLabelOf_isSome, inputOf_isSome, switchOf_isSome,
      structuralOf_isSome]
    rfl
  · obtain ⟨m, presence⟩ := Nat.exists_eq_add_of_le' other
    simp [keyChecks, presence, firstBad]

/-- The checks of the source list, with the count as a check of its own. -/
theorem firstBad_sourceChecks (c : Counting) (x : EventOperands) :
    firstBad ([(24, decide (1 ≤ x.sourceCount ∧ x.sourceCount ≤ 2)), (24, decide (x.entry1.deck < 4)),
        (25, (readLabel c x.entry1.play).isSome)]
      ++ (if x.sourceCount = 2 then [(26, decide (x.entry2.deck < 4)), (27, (readLabel c x.entry2.play).isSome)] else []))
      = firstBad (sourceChecks c x) := by
  obtain zero | one | two | other : x.sourceCount = 0 ∨ x.sourceCount = 1 ∨ x.sourceCount = 2 ∨ 3 ≤ x.sourceCount := by
    omega
  · simp [sourceChecks, zero, firstBad]
  · simp [sourceChecks, one, firstBad, deckOf_isSome, storedLabelOf_isSome]
  · simp [sourceChecks, two, firstBad, deckOf_isSome, storedLabelOf_isSome]
  · obtain ⟨m, count⟩ := Nat.exists_eq_add_of_le' other
    simp [sourceChecks, count, firstBad]

/-- The checks of operands 1 to 15, with the choice byte of operand 3 as a check of its own. -/
theorem firstBad_eventChecks (c : Counting) (x : EventOperands) :
    firstBad ([(1, decide (x.slot < 64)), (2, decide (x.kind < 2)), (3, decide (x.recordIn.alt < 2)),
        (3, x.recordIn.alt != 0 || (readLabel c x.recordIn.label).isSome), (4, decide (x.length.alt < 2)),
        (5, decide (x.transition < 3)), (6, decide (x.start < 2591999)), (10, decide (x.reverse < 2)),
        (14, decide (x.hold < 2)), (15, decide (x.tracks < 16))] ++ keyChecks c x.key ++ sourceChecks c x)
      = firstBad (eventChecks c x) := by
  simp only [eventChecks, slotOf_isSome, kindOf_isSome, recordInOf_isSome, lengthOf_isSome, transitionOf_isSome,
    structuralOf_isSome, switchOf_isSome, holdOf_isSome, tracksOf_isSome]
  exact firstBad_cons_congr (firstBad_cons_congr (firstBad_both 3 _ _ _) _) _

/-- Settles O18: command by command, the checks of its owner are those of the statement. -/
theorem structuralValuesRefused : Obligations.StructuralValuesRefused := by
  intro s off a b c d e f g v at_ cue ops points label below judged k keyChecks' sourceChecks'
  refine ⟨(execInputConfig_judges ..).judged ?_, (execSubstPolicy_judges ..).judged ?_, (execTcConfig_judges ..).judged ?_,
    (execMarkPush_judges ..).judged ?_, (execDeckAssign_judges ..).judged ?_, (execDeckParams_judges ..).judged ?_,
    (execDeckRead_judges ..).judged ?_, (execDeckDirect_judges ..).judged ?_, (execEventLoad_judges ..).judged ?_,
    (execEventClear_judges ..).judged ?_, (execEventRead_judges ..).judged ?_, (execEventArm_judges ..).judged ?_,
    (execListRun_judges ..).judged ?_, (execXptSet_judges ..).judged ?_, (execKeyParams_judges ..).judged ?_,
    (execAutoTake_judges ..).judged ?_, (execPatternLoad_judges ..).judged ?_,
    fun length => (execCurveLoad_judges off a length s).judged ?_, (execGpiConfig_judges ..).judged ?_,
    (execTallyConfig_judges ..).judged ?_⟩
  case refine_9 =>
    have keys : firstBad keyChecks' = firstBad (keyChecks s.part.counting ops.key) := firstBad_keyChecks _ _
    have sources : firstBad sourceChecks' = firstBad (sourceChecks s.part.counting ops) := firstBad_sourceChecks _ _
    exact (firstBad_append_congr (firstBad_append_congr rfl keys) sources).trans (firstBad_eventChecks _ _)
  all_goals
    simp only [inputOf_isSome, policyOf_isSome, switchOf_isSome, preferenceOf_isSome, deckOf_isSome, roleOf_isSome,
      videoInputOf_isSome, directOf_isSome, slotOf_isSome, sourceOf_isSome, transitionOf_isSome, patternOf_isSome,
      curveOf_isSome, shapeOf_isSome, loadableCurveOf_isSome, lineOf_isSome, gpiRoleOf_isSome, edgeOf_isSome,
      tallyRoleOf_isSome, below, label]

end Sys2Proof.Machine
end

section
/-! ## The reset of the engine (O19)

What the moves of an abort write into each deck, its port and its chase (R107, R147), and what becomes of the slots. -/

namespace Sys2Proof.Machine

open Sys2Proof

/-! ### Work done deck by deck -/

/-- Work that each deck does for itself alone is done once for every deck of a list without repeats. -/
theorem Part.each_at {α : Type} (view : DeckNo → Part → α) (change : α → α) {f : DeckNo → Part → Part}
    (other : ∀ d e q, d ≠ e → view d (f e q) = view d q) (own : ∀ d q, view d (f d q) = change (view d q))
    {ds : List DeckNo} (nodup : ds.Nodup) (d : DeckNo) (p : Part) :
    view d (p.each ds f) = if d ∈ ds then change (view d p) else view d p := by
  induction ds generalizing p with
  | nil => rfl
  | cons e ds ih =>
    obtain ⟨fresh, nodup⟩ := List.nodup_cons.1 nodup
    have rest : view d (p.each (e :: ds) f) = if d ∈ ds then change (view d (f e p)) else view d (f e p) := ih nodup (f e p)
    by_cases same : d = e
    · subst same
      simp [rest, fresh, own]
    · simp [rest, same, other d e p same]

/-- What each deck's work keeps true of the part stays true. -/
theorem Part.each_stays {P : Part → Prop} {f : DeckNo → Part → Part} (keeps : ∀ d q, P q → P (f d q)) (ds : List DeckNo)
    {p : Part} (h : P p) : P (p.each ds f) := by
  induction ds generalizing p with
  | nil => exact h
  | cons d ds ih => exact ih (keeps d p h)

theorem allDecks_nodup : allDecks.Nodup := by decide

/-! ### The decks of the active event -/

/-- The roles and the engine decide which decks are in the active event. -/
theorem Part.inActiveEvent_congr {p q : Part} (eds : q.eds = p.eds) {d : DeckNo} (role : (q.deck d).role = (p.deck d).role) :
    q.inActiveEvent d = p.inActiveEvent d := by
  have event : q.activeEvent = p.activeEvent := by simp only [Part.activeEvent, Part.slot, eds]
  simp only [Part.inActiveEvent, event, role]

theorem Part.mem_eventDecks (p : Part) (d : DeckNo) : d ∈ p.eventDecks ↔ p.inActiveEvent d = true := by
  simp [Part.eventDecks, List.mem_filter, mem_allDecks]

theorem Part.eventDecks_nodup (p : Part) : p.eventDecks.Nodup := allDecks_nodup.filter _

theorem Part.inActiveEvent_none {p : Part} (h : p.eds.active = none) (d : DeckNo) : p.inActiveEvent d = false := by
  simp [Part.inActiveEvent, Part.activeEvent, h]

/-! ### The moves of an abort, deck by deck (R107, R147) -/

/-- A deck's record, its port and what the CHU keeps of it. -/
structure Bay where
  deck : Deck
  port : Port
  own : ChaseOwn

def Part.bay (p : Part) (d : DeckNo) : Bay := { deck := p.deck d, port := p.port d, own := p.chu.own.get d }

theorem Part.modMep_bay (p : Part) (f : Mep → Mep) (d : DeckNo) : (p.modMep f).bay d = p.bay d := rfl
theorem Part.setSyncWatch_bay (p : Part) (b : Bool) (d : DeckNo) : (p.setSyncWatch b).bay d = p.bay d := rfl

/-- Record OFF is wanted of the recorder. -/
def Bay.recordOff (x : Bay) (recorder : Prop) [Decidable recorder] : Bay :=
  { x with deck := { x.deck with wantRecord := if recorder then false else x.deck.wantRecord } }

/-- STILL is wanted of a deck of the event, and its direct hold ends. -/
def Bay.still (x : Bay) (event : Bool) : Bay :=
  { x with
    deck := { x.deck with want := if event then .still else x.deck.want }
    port := { x.port with directHold := if event then false else x.port.directHold } }

/-- The chase items of a deck that does not chase (R105, R107). -/
def ChaseItems.stopped : ChaseItems := { state := .off, error := 0, lockCount := 0, speed := 256 }

/-- A chase stops (R107). -/
def Bay.chaseStopped (x : Bay) : Bay :=
  { x with
    deck := { x.deck with chase := .stopped, wantSpeed := 256 }
    own := { x.own with pending := false } }

/-- A chase stops where the deck chases. -/
def Bay.unchased (x : Bay) : Bay := if x.deck.chase.state = .off then x else x.chaseStopped

theorem Part.recordOff_bay (p : Part) (d : DeckNo) : p.recordOff.bay d = (p.bay d).recordOff (p.recorder = some d) := by
  unfold Part.recordOff
  cases p.recorder with
  | none => simp [Bay.recordOff]
  | some e =>
    by_cases same : d = e
    · subst same
      simp [Part.bay, Bay.recordOff, Part.wantRecordOff]
    · simp [Part.bay, Bay.recordOff, Part.wantRecordOff, Part.modDeck_deck_ne _ _ same, Ne.symm same]

theorem Part.wantStill_bay (p : Part) (d : DeckNo) : (p.wantTransport d .still).bay d = (p.bay d).still true := by
  obtain ⟨deck_eq, port_eq⟩ := p.wantTransport_spec d .still
  rw [Part.bay, deck_eq, port_eq]
  rfl

theorem Part.wantStill_bay_ne (p : Part) {d e : DeckNo} (h : d ≠ e) : (p.wantTransport e .still).bay d = p.bay d := by
  obtain ⟨deck_eq, port_eq⟩ := p.wantTransport_other .still h
  rw [Part.bay, deck_eq, port_eq]
  rfl

theorem Part.stillAll_bay (p : Part) (d : DeckNo) : p.stillAll.bay d = (p.bay d).still (p.inActiveEvent d) := by
  have done := Part.each_at (fun d q => q.bay d) (Bay.still · true) (fun _ _ q other => q.wantStill_bay_ne other)
    (fun d q => q.wantStill_bay d) p.eventDecks_nodup d p
  refine Eq.trans done ?_
  cases event : p.inActiveEvent d
  · rw [if_neg (by simp [p.mem_eventDecks, event])]
    rfl
  · rw [if_pos ((p.mem_eventDecks d).2 event)]

theorem Part.chaseStop_bay (p : Part) (d : DeckNo) : (p.chaseStop d).bay d = (p.bay d).chaseStopped := by
  have deck_eq : (p.chaseStop d).deck d = (p.bay d).chaseStopped.deck := by
    show ((p.modDeck d (fun k => { k with chase := .stopped })).modDeck d (fun k => { k with wantSpeed := 256 })).deck d = _
    rw [Part.modDeck_deck_self, Part.modDeck_deck_self]
    rfl
  have own_eq : (p.chaseStop d).chu.own.get d = (p.bay d).chaseStopped.own := Table.get_modify_self _ _ _
  rw [Part.bay, deck_eq, own_eq]
  rfl

theorem Part.chaseStop_bay_ne (p : Part) {d e : DeckNo} (h : d ≠ e) : (p.chaseStop e).bay d = p.bay d := by
  have deck_eq : (p.chaseStop e).deck d = p.deck d := by
    show ((p.modDeck e (fun k => { k with chase := .stopped })).modDeck e (fun k => { k with wantSpeed := 256 })).deck d = _
    rw [Part.modDeck_deck_ne _ _ h, Part.modDeck_deck_ne _ _ h]
  have own_eq : (p.chaseStop e).chu.own.get d = p.chu.own.get d := Table.get_modify_ne _ _ h
  rw [Part.bay, deck_eq, own_eq]
  rfl

theorem Part.chaseStopAll_bay (p : Part) (d : DeckNo) : p.chaseStopAll.bay d = (p.bay d).unchased := by
  have done := Part.each_at (fun d q => q.bay d) Bay.unchased (f := fun d q => if q.chasing d then q.chaseStop d else q)
    (fun _ e q other => by
      by_cases chasing : q.chasing e = true
      · rw [if_pos chasing, q.chaseStop_bay_ne other]
      · rw [if_neg chasing])
    (fun d q => by
      by_cases off : (q.deck d).chase.state = .off
      · rw [if_neg (by simp [Part.chasing, off])]
        exact (if_pos off).symm
      · rw [if_pos (by simp [Part.chasing, off]), q.chaseStop_bay d]
        exact (if_neg off).symm)
    allDecks_nodup d p
  exact done.trans (if_pos (mem_allDecks d))

theorem Part.chaseStop_chu (p : Part) (d : DeckNo) :
    (p.chaseStop d).chu = { p.chu with own := (p.chaseStop d).chu.own, syncWatch := false } := rfl

/-- Beside the decks a chase stop ends the sync watch, which the end of an event has ended before. -/
theorem Part.chaseStopAll_chu (p : Part) (h : p.chu.syncWatch = false) :
    p.chaseStopAll.chu = { p.chu with own := p.chaseStopAll.chu.own } := by
  have beside : (p.chaseStopAll.chu.params, p.chaseStopAll.chu.syncWatch) = (p.chu.params, false) := by
    unfold Part.chaseStopAll
    refine Part.each_stays (P := fun q => (q.chu.params, q.chu.syncWatch) = (p.chu.params, false))
      (fun d q quiet => ?_) _ (by rw [h])
    by_cases chasing : q.chasing d = true
    · rw [if_pos chasing, q.chaseStop_chu d]
      exact congrArg (fun x => (x.1, false)) quiet
    · rw [if_neg chasing]
      exact quiet
  obtain ⟨params, watch⟩ := Prod.mk.inj beside
  cases stopped : p.chaseStopAll.chu
  rw [stopped] at params watch
  subst params watch
  rw [← h]

/-! ### The end of an event (R147) -/

/-- The moves of R147 before the slot's final state. -/
def Part.stood (p : Part) : Part := ((p.recordOff.stillAll.setSyncWatch false).chaseStopAll).modMep Mep.release

theorem Part.closeEvent_eq (p : Part) (st : SlotState) (r : Reason) : p.closeEvent st r = p.stood.closeSlot st r := rfl

theorem Part.stood_bay (p : Part) (d : DeckNo) :
    p.stood.bay d = (((p.bay d).recordOff (p.recorder = some d)).still (p.inActiveEvent d)).unchased := by
  have role : (p.recordOff.deck d).role = (p.deck d).role := by
    show (p.recordOff.bay d).deck.role = _
    rw [p.recordOff_bay d]
    rfl
  have event : p.recordOff.inActiveEvent d = p.inActiveEvent d :=
    Part.inActiveEvent_congr (Part.eds_of_desk p.recordOff_desk) role
  rw [Part.stood, Part.modMep_bay, Part.chaseStopAll_bay, Part.setSyncWatch_bay, Part.stillAll_bay, event, p.recordOff_bay d]

/-- The chase unit but for what it keeps of each deck, and the mixer, after the moves of R147. -/
theorem Part.stood_beside (p : Part) :
    p.stood.chu = { p.chu with syncWatch := false, own := p.stood.chu.own } ∧ p.stood.mep = p.mep.release := by
  have off : (p.recordOff.chu, p.recordOff.mep) = (p.chu, p.mep) := by
    unfold Part.recordOff
    split <;> rfl
  have still : (p.recordOff.stillAll.chu, p.recordOff.stillAll.mep) = (p.chu, p.mep) :=
    (Part.each_keeps (fun q => (q.chu, q.mep)) (fun d q => q.wantTransport d .still) (fun _ _ => rfl) _ _).trans off
  obtain ⟨chu_eq, mep_eq⟩ := Prod.mk.inj still
  constructor
  · have stopped := (p.recordOff.stillAll.setSyncWatch false).chaseStopAll_chu rfl
    rw [Part.setSyncWatch_chu, chu_eq] at stopped
    rw [Part.stood, Part.modMep_chu]
    exact stopped
  · have mep_kept : (p.recordOff.stillAll.setSyncWatch false).chaseStopAll.mep = p.recordOff.stillAll.mep :=
      Part.each_keeps Part.mep _ (fun d q => by split <;> rfl) _ _
    rw [Part.stood, Part.modMep_mep, mep_kept, mep_eq]

/-- What a slot's final state leaves alone: the bays, the chase unit and the mixer. -/
theorem Part.closeSlot_beside (p : Part) (st : SlotState) (r : Reason) :
    (p.closeSlot st r).bay = p.bay ∧ (p.closeSlot st r).chu = p.chu ∧ (p.closeSlot st r).mep = p.mep := by
  unfold Part.closeSlot
  split <;> exact ⟨rfl, rfl, rfl⟩

/-! ### The engine -/

theorem Part.disarmedIdle_bay (p : Part) : (p.disarmAll.enterIdle false).bay = p.bay := rfl
theorem Part.disarmedIdle_chu (p : Part) : (p.disarmAll.enterIdle false).chu = p.chu := rfl
theorem Part.disarmedIdle_mep (p : Part) : (p.disarmAll.enterIdle false).mep = p.mep := rfl
theorem Part.disarmedIdle_pku (p : Part) : (p.disarmAll.enterIdle false).pku = p.pku := rfl
theorem Part.disarmedIdle_tcu (p : Part) : (p.disarmAll.enterIdle false).tcu = p.tcu := rfl

theorem Part.disarmedIdle_slot (p : Part) (n : SlotNo) : (p.disarmAll.enterIdle false).slot n = (p.slot n).disarmed :=
  Table.get_map _ _ _

/-- A disarm, by the state of the slot (R130). -/
theorem Slot.disarmed_eq (s : Slot) : s.disarmed = if s.state = .armed then { s with state := .loaded, arm := none } else s := by
  unfold Slot.disarmed
  split <;> simp_all

theorem Part.resetEngine_none {p : Part} (h : p.eds.active = none) : p.resetEngine = p.disarmAll.enterIdle false := by
  simp [Part.resetEngine, Part.eventActive, h]

theorem Part.resetEngine_some {p : Part} {n : SlotNo} (h : p.eds.active = some n) :
    p.resetEngine = (p.closeEvent .aborted .engineReset).disarmAll.enterIdle false := by
  simp [Part.resetEngine, Part.eventActive, h]

/-- The engine after its reset (R151). -/
theorem Part.resetEngine_eds (p : Part) : p.resetEngine.eds = { p.eds with slots := p.resetEngine.eds.slots }.idled false := by
  cases active : p.eds.active with
  | none =>
    rw [Part.resetEngine_none active]
    rfl
  | some n =>
    rw [Part.resetEngine_some active, Part.enterIdle_eds, Part.disarmAll_eds, Part.closeEvent_eds, p.closeSlot_some _ _ active]
    rfl

theorem Part.closeEvent_slot (p : Part) (st : SlotState) (r : Reason) {n : SlotNo} (h : p.eds.active = some n) (m : SlotNo) :
    (p.closeEvent st r).slot m = if m = n then (p.slot m).closed st r else p.slot m := by
  rw [Part.slot, p.closeEvent_eds, p.closeSlot_some st r h]
  by_cases same : m = n
  · subst same
    exact (p.modSlot_slot_self m _).trans (if_pos rfl).symm
  · exact (p.modSlot_slot_ne _ same).trans (if_neg same).symm

/-- Each slot after the reset of the engine: the active one aborted, an ARMED one disarmed (R130, R151). -/
theorem Part.resetEngine_slot (p : Part) (n : SlotNo) :
    p.resetEngine.slot n =
      if p.eds.active = some n then (p.slot n).closed .aborted .engineReset
      else if (p.slot n).state = .armed then { p.slot n with state := .loaded, arm := none } else p.slot n := by
  cases active : p.eds.active with
  | none => rw [Part.resetEngine_none active, Part.disarmedIdle_slot, Slot.disarmed_eq,
      if_neg (Option.some_ne_none n).symm]
  | some m =>
    rw [Part.resetEngine_some active, Part.disarmedIdle_slot, p.closeEvent_slot _ _ active]
    by_cases same : n = m
    · subst same
      rw [if_pos rfl, if_pos rfl]
      rfl
    · rw [if_neg same, if_neg (fun h => same (Option.some.inj h).symm), Slot.disarmed_eq]

/-- What the moves of the abort write into a bay when the engine is reset: nothing where no slot is ACTIVE. -/
theorem Part.resetEngine_bay (p : Part) (d : DeckNo) :
    p.resetEngine.bay d = if p.eds.active = none then p.bay d
      else (((p.bay d).recordOff (p.recorder = some d)).still (p.inActiveEvent d)).unchased := by
  cases active : p.eds.active with
  | none => rw [Part.resetEngine_none active, Part.disarmedIdle_bay, if_pos rfl]
  | some n =>
    rw [Part.resetEngine_some active, if_neg (Option.some_ne_none n), ← p.stood_bay d, Part.disarmedIdle_bay, Part.closeEvent_eq,
      (p.stood.closeSlot_beside _ _).1]

/-- What the reset of the engine leaves of the packet unit, the timecode unit, the chase unit and the mixer. -/
theorem Part.resetEngine_beside (p : Part) :
    p.resetEngine.pku = p.pku ∧ p.resetEngine.tcu = p.tcu
    ∧ p.resetEngine.chu = { p.chu with
        syncWatch := if p.eds.active = none then p.chu.syncWatch else false, own := p.resetEngine.chu.own }
    ∧ p.resetEngine.mep = if p.eds.active = none then p.mep else p.mep.release := by
  cases active : p.eds.active with
  | none =>
    rw [Part.resetEngine_none active, Part.disarmedIdle_pku, Part.disarmedIdle_tcu, Part.disarmedIdle_chu,
      Part.disarmedIdle_mep, if_pos rfl, if_pos rfl]
    exact ⟨rfl, rfl, rfl, rfl⟩
  | some n =>
    obtain ⟨-, chu_eq, mep_eq⟩ := p.stood.closeSlot_beside .aborted .engineReset
    rw [Part.resetEngine_some active, Part.disarmedIdle_pku, Part.disarmedIdle_tcu, Part.disarmedIdle_chu,
      Part.disarmedIdle_mep, if_neg (Option.some_ne_none n), if_neg (Option.some_ne_none n), Part.closeEvent_pku,
      Part.tcu_of_tapes (p.closeEvent_tapes .aborted .engineReset), Part.closeEvent_eq, chu_eq, mep_eq, p.stood_beside.2]
    exact ⟨rfl, rfl, p.stood_beside.1, rfl⟩

/-- The statement's account of one bay: with no slot ACTIVE it stays, else the moves of an abort are made. -/
theorem Part.resetEngine_bay_fields (p : Part) (d : DeckNo) :
    let ends : Prop := p.eds.active ≠ none
    let chases : Prop := ends ∧ (p.deck d).chase.state ≠ .off
    p.resetEngine.bay d =
      { deck := { p.deck d with
          want := if p.inActiveEvent d then .still else (p.deck d).want
          wantRecord := if ends ∧ p.recorder = some d then false else (p.deck d).wantRecord
          wantSpeed := if chases then 256 else (p.deck d).wantSpeed
          chase := if chases then .stopped else (p.deck d).chase }
        port := { p.port d with directHold := if p.inActiveEvent d then false else (p.port d).directHold }
        own := { p.chu.own.get d with pending := if chases then false else (p.chu.own.get d).pending } } := by
  intro ends chases
  rw [p.resetEngine_bay d]
  by_cases idle : p.eds.active = none
  · simp [chases, ends, idle, Part.inActiveEvent_none idle, Part.bay]
  · by_cases off : (p.deck d).chase.state = .off
    · simp [chases, ends, idle, off, Part.bay, Bay.unchased, Bay.recordOff, Bay.still]
    · simp [chases, ends, idle, off, Part.bay, Bay.unchased, Bay.recordOff, Bay.still, Bay.chaseStopped]

/-- Settles O19: the engine, each slot, each bay, and the frame, each from its own lemma. -/
theorem engineReset : Obligations.EngineReset := by
  intro s off e ends chases m
  obtain ⟨pku_eq, tcu_eq, chu_eq, mep_eq⟩ := s.part.resetEngine_beside
  have aside := s.part.resetEngine_aside
  refine ⟨s.part.resetEngine, rfl, ?_, s.part.resetEngine_slot, fun d => ?_, ?_, ?_, pku_eq, tcu_eq, Part.rtu_of_aside aside,
    Part.sius_of_aside aside, Part.gtu_of_aside aside⟩
  · rw [s.part.resetEngine_eds]
    simp [Eds.idled, e]
  · obtain ⟨deck_eq, port_eq, own_eq⟩ := Bay.mk.inj (s.part.resetEngine_bay_fields d)
    exact ⟨deck_eq, port_eq, own_eq⟩
  · rw [chu_eq]
    by_cases idle : s.part.eds.active = none <;> simp [ends, e, idle]
  · rw [mep_eq]
    by_cases idle : s.part.eds.active = none
    · simp [ends, e, idle, m]
    · by_cases eds : m.owner = .eds
      · rw [if_neg idle, if_pos ⟨idle, eds⟩]
        exact s.part.mep.release_spec.1 eds
      · rw [if_neg idle, if_neg (fun h => eds h.2)]
        exact s.part.mep.release_spec.2 eds

end Sys2Proof.Machine
end

section
/-! ## Laws: the bytes of a record

A record of a kind payload as the list of its numbers, part by part (R37). -/

namespace Sys2Proof.Machine

open Sys2Proof

/-- The bytes hold these numbers, each the low byte of its own. -/
def Carries (bs : List Byte) (vs : List Int) : Prop := bs = vs.map (BitVec.ofInt 8)

namespace Carries

theorem nil : Carries [] [] := rfl

theorem cons {b : Byte} {v : Int} {bs : List Byte} {vs : List Int} (head : b = BitVec.ofInt 8 v) (tail : Carries bs vs) :
    Carries (b :: bs) (v :: vs) := by
  rw [Carries, List.map_cons, ← head, ← tail]

theorem append {bs cs : List Byte} {vs ws : List Int} (left : Carries bs vs) (right : Carries cs ws) :
    Carries (bs ++ cs) (vs ++ ws) := by
  rw [Carries, List.map_append, ← left, ← right]

theorem one {b : Byte} {v : Int} (h : b = BitVec.ofInt 8 v) : Carries [b] [v] := cons h nil

theorem two (v : Int) : Carries (numBytes 2 v) [v / 256, v] := numBytes_two v

theorem three (v : Int) : Carries (numBytes 3 v) [v / 65536, v / 256, v] := numBytes_three v

end Carries

theorem switchByte_ofInt (b : Bool) : byteOf (switchCode b) = BitVec.ofInt 8 (if b then 1 else 0) := by cases b <;> rfl

/-- The bytes of a label with its indications (Table 2-11). -/
theorem labelBytes_carries (l : Label) (drop normalised : Bool) {half : Int} (h : half = fieldBit l.field) :
    Carries (labelBytes l drop normalised)
      [l.hh, l.mm, l.ss, l.ff, half + 4 * (if normalised then 1 else 0) + 8 * (if drop then 1 else 0)] := by
  have last : byteOf (fieldBit l.field + (if normalised then 4 else 0) + (if drop then 8 else 0))
      = BitVec.ofInt 8 (half + 4 * (if normalised then 1 else 0) + 8 * (if drop then 1 else 0)) := by
    rw [byteOf_ofInt, h]
    cases normalised <;> cases drop <;> rfl
  exact .cons (byteOf_ofInt _) (.cons (byteOf_ofInt _) (.cons (byteOf_ofInt _) (.cons (byteOf_ofInt _) (.one last))))

/-- A label the 420 forms has its normalised bit clear (R57). -/
theorem formedLabel_carries (c : Counting) (l : Label) {half : Int} (h : half = fieldBit l.field) :
    Carries (formedLabel c l) [l.hh, l.mm, l.ss, l.ff, half + 8 * (if c.drop then 1 else 0)] := by
  have carried := labelBytes_carries l c.drop false h
  simpa [formedLabel] using carried

end Sys2Proof.Machine
end

section
/-! ## Deck and chase parameters, and the deck record (O33) -/

namespace Sys2Proof.Machine

open Sys2Proof

theorem Part.anyChasing_iff (p : Part) : allDecks.any p.chasing = true ↔ ∃ d, (p.deck d).chase.state ≠ .off := by
  simp only [List.any_eq_true, Part.chasing, bne_iff_ne]
  exact ⟨fun ⟨d, _, h⟩ => ⟨d, h⟩, fun ⟨d, h⟩ => ⟨d, mem_allDecks d, h⟩⟩

/-- Settles O33: the parameters by the test that refuses them, the record part by part. -/
theorem deckAndChaseParams : Obligations.DeckAndChaseParams := by
  constructor
  · intro s off d poll line lead record tolerance timeout stored answer c k q flag two label zero offered items read
    refine ⟨fun free => ?_, fun held => ?_, ?_⟩
    · simp only [exec, execDeckParams, deckOf_val, free]
      rfl
    · simp only [exec, execDeckParams, deckOf_val, held]
      rfl
    · have label_carries (l : Label) : Carries (formedLabel c l) (label l) :=
        formedLabel_carries c l (by cases l.field <;> rfl)
      have carried : Carries (deckRecordBytes c d k) items := by
        refine ((((((((((((((((((Carries.append ?head (.two _)).append ?timeouts).append ?want).append ?record).append
          (.two _)).append ?direct).append ?sent).append ?sentRecord).append ?sentSpeed).append ?params).append
          (label_carries _)).append ?position).append (.two _)).append ?ages).append (.three _)).append ?lock).append
          (.two _)).append ?reply)
        case head =>
          exact .cons (byteOf_ofInt _) (.cons (by cases k.role <;> rfl) (.cons (by cases k.input with
            | none => rfl
            | some i => cases i <;> rfl) (.cons (by cases k.line <;> rfl) (.cons (by cases k.transport <;> rfl)
              (.one (by cases k.servo <;> cases k.inhibit <;> cases k.isLocal <;> rfl))))))
        case timeouts => exact .one (byteOf_ofInt _)
        case want =>
          cases k.want with
          | cueTo n => exact .cons rfl (label_carries _)
          | _ => rfl
        case record => exact .one (switchByte_ofInt _)
        case direct =>
          cases k.direct with
          | none => rfl
          | some x =>
            refine .cons rfl ((Carries.cons (by cases x.command <;> rfl) (.two _)).append ?_)
            cases x.cue with
            | none => rfl
            | some l => exact label_carries l
        case sent =>
          cases k.sent with
          | cueTo n => exact .cons rfl (label_carries _)
          | _ => rfl
        case sentRecord =>
          cases k.sentRecord with
          | none => rfl
          | some b => exact .one (switchByte_ofInt b)
        case sentSpeed =>
          cases k.sentSpeed with
          | none => rfl
          | some v => exact .cons rfl (.two v)
        case params =>
          exact .cons (byteOf_ofInt _) (.cons (byteOf_ofInt _) (.cons (byteOf_ofInt _) (.cons (byteOf_ofInt _)
            (.cons (byteOf_ofInt _) (.one (byteOf_ofInt _))))))
        case position =>
          exact .cons (flagByte_ofInt _) (.cons (by cases q.source <;> rfl) (.cons (byteOf_ofInt _)
            (.one (byteOf_ofInt _))))
        case ages =>
          exact .cons (byteOf_ofInt _) (.cons (byteOf_ofInt _) (.cons (by cases q.tcSource <;> rfl)
            (.cons (by cases q.preference <;> rfl) (.one (by cases k.chase.state <;> rfl)))))
        case lock => exact .one (byteOf_ofInt _)
        case reply =>
          cases k.lastReply with
          | none => rfl
          | some r => exact .cons rfl (.cons (byteOf_ofInt _) (.cons (switchByte_ofInt _) (.one (byteOf_ofInt _))))
      simp only [exec, execDeckRead, deckOf_val]
      rw [show deckRecordBytes s.part.counting d (s.part.deck d) = items.map (BitVec.ofInt 8) from carried]
      rfl
  · intro s off gain slew window lockRun unlock sync given stored answer
    refine ⟨fun off => ?_, fun chasing => ?_⟩
    · have quiet : ¬ allDecks.any s.part.chasing = true := by
        rw [Part.anyChasing_iff]
        exact fun ⟨d, h⟩ => h (off d)
      simp only [exec, execChaseParams, if_neg quiet]
      rfl
    · simp only [exec, execChaseParams, if_pos (s.part.anyChasing_iff.2 chasing)]
      rfl

end Sys2Proof.Machine
end

section
/-! ## Loading, clearing and reading a slot (O42) -/

namespace Sys2Proof.Machine

open Sys2Proof

/-! ### The operands of EVENT_LOAD (R120) -/

theorem deckOf_eq {n : Nat} {d : DeckNo} (h : deckOf n = some d) : d.val = n := by
  unfold deckOf at h
  split at h
  · obtain rfl := Option.some.inj h
    rfl
  · cases h

theorem kindOf_eq {n : Nat} {k : EventKind} (h : kindOf n = some k) : k.code = n := by
  unfold kindOf at h
  split at h <;> cases h <;> rfl

theorem transitionOf_eq {n : Nat} {k : Transition} (h : transitionOf n = some k) : k.code = n := by
  unfold transitionOf at h
  split at h <;> cases h <;> rfl

theorem switchOf_eq {n : Nat} {b : Bool} (h : switchOf n = some b) : switchCode b = n := by
  unfold switchOf at h
  split at h <;> cases h <;> rfl

theorem holdOf_eq {n : Nat} {k : Hold} (h : holdOf n = some k) : k.code = n := by
  unfold holdOf at h
  split at h <;> cases h <;> rfl

theorem inputOf_eq {n : Nat} {i : Input} (h : inputOf n = some i) : inputCode i = n := by
  unfold inputOf at h
  split at h <;> cases h <;> rfl

theorem tracksOf_eq {n : Nat} {t : BitVec 4} (h : tracksOf n = some t) : t.toNat = n := by
  unfold tracksOf at h
  split at h
  · next below =>
    obtain rfl := Option.some.inj h
    simpa using below
  · cases h

theorem structuralOf_eq {hi n v : Nat} (h : structuralOf hi n = some v) : v = n := by
  unfold structuralOf at h
  split at h
  · exact (Option.some.inj h).symm
  · cases h

theorem switchCode_eq_one (b : Bool) : b = true ↔ switchCode b = 1 := by cases b <;> decide

theorem EventKind.insert_iff (k : EventKind) : k = .insert ↔ k.code = 0 := by cases k <;> decide

theorem Hold.beforeRoll_iff (k : Hold) : k = .beforeRoll ↔ k.code = 1 := by cases k <;> decide

/-- A stored label is the operand as R25 and R39 read it, with the indications of the load. -/
theorem storedLabelOf_eq {c : Counting} {r : RawLabel} {l : StoredLabel} (h : storedLabelOf c r = some l) :
    readLabel c r = some (l.label, l.normalised) ∧ l.drop = c.drop := by
  unfold storedLabelOf at h
  split at h
  · next x n read =>
    obtain rfl := Option.some.inj h
    exact ⟨read, rfl⟩
  · cases h

theorem recordInOf_eq {c : Counting} {x : LabelChoice} {r : Option StoredLabel} (h : recordInOf c x = some r) :
    (x.alt = 0 → ∃ l, r = some l ∧ storedLabelOf c x.label = some l) ∧ (x.alt ≠ 0 → r = none) := by
  unfold recordInOf at h
  split at h
  · next label =>
    obtain ⟨l, read, rfl⟩ := Option.map_eq_some_iff.1 h
    exact ⟨fun _ => ⟨l, rfl, read⟩, fun other => absurd label other⟩
  · next mark =>
    obtain rfl := Option.some.inj h
    exact ⟨fun zero => absurd (mark.symm.trans zero) (by decide), fun _ => rfl⟩
  · cases h

theorem lengthOf_eq {x : NumberChoice} {r : Option Nat} (h : lengthOf x = some r) :
    (x.alt = 0 → r = some (max 1 (min 2591999 x.value))) ∧ (x.alt ≠ 0 → r = none) := by
  unfold lengthOf at h
  split at h
  · next value =>
    obtain rfl := Option.some.inj h
    exact ⟨fun _ => by rw [clampTo_eq (by decide)], fun other => absurd value other⟩
  · next isOpen =>
    obtain rfl := Option.some.inj h
    exact ⟨fun zero => absurd (isOpen.symm.trans zero) (by decide), fun _ => rfl⟩
  · cases h

/-- What a key of the record holds of its operands. -/
theorem keyOf_eq {c : Counting} {x : KeyOperands} {k : EventKey} (h : keyOf c x = some k) :
    k.fillDeck.val = x.fillDeck ∧ storedLabelOf c x.fillIn = some k.fillIn ∧ inputCode k.keyInput = x.keyInput
    ∧ k.clip = min 1023 x.clip ∧ k.gain = max 1 (min 255 x.gain) ∧ (k.invert = true ↔ x.invert = 1)
    ∧ k.onOffset = x.onOffset ∧ k.offOffset = x.offOffset := by
  simp only [keyOf, Option.bind_eq_bind, Option.bind_eq_some_iff] at h
  obtain ⟨deck, deck_eq, fill, fill_eq, input, input_eq, invert, invert_eq, on, on_eq, off, off_eq, h⟩ := h
  obtain rfl := Option.some.inj h
  refine ⟨deckOf_eq deck_eq, fill_eq, inputOf_eq input_eq, ?_, clampTo_eq (by decide) _, ?_, structuralOf_eq on_eq,
    structuralOf_eq off_eq⟩
  · simp [clampTo_eq]
  · rw [switchCode_eq_one, switchOf_eq invert_eq]

theorem optionalKeyOf_eq {c : Counting} {x : KeyOperands} {r : Option EventKey} (h : optionalKeyOf c x = some r) :
    (x.presence ≠ 1 → r = none) ∧ (x.presence = 1 → ∃ k, r = some k ∧ keyOf c x = some k) := by
  unfold optionalKeyOf at h
  split at h
  · next absent =>
    obtain rfl := Option.some.inj h
    exact ⟨fun _ => rfl, fun one => absurd (absent.symm.trans one) (by decide)⟩
  · next present =>
    obtain ⟨k, read, rfl⟩ := Option.map_eq_some_iff.1 h
    exact ⟨fun other => absurd present other, fun _ => ⟨k, rfl, read⟩⟩
  · cases h

theorem eventSourceOf_eq {c : Counting} {x : SourceOperand} {y : EventSource} (h : eventSourceOf c x = some y) :
    y.deck.val = x.deck ∧ storedLabelOf c x.play = some y.play := by
  simp only [eventSourceOf, Option.bind_eq_bind, Option.bind_eq_some_iff] at h
  obtain ⟨deck, deck_eq, play, play_eq, h⟩ := h
  obtain rfl := Option.some.inj h
  exact ⟨deckOf_eq deck_eq, play_eq⟩

theorem secondSourceOf_eq {c : Counting} {count : Nat} {x : SourceOperand} {r : Option EventSource}
    (h : secondSourceOf c count x = some r) :
    (count ≠ 2 → r = none) ∧ (count = 2 → ∃ y, r = some y ∧ eventSourceOf c x = some y) := by
  unfold secondSourceOf at h
  split at h
  · obtain rfl := Option.some.inj h
    exact ⟨fun _ => rfl, fun two => absurd two (by decide)⟩
  · obtain ⟨y, read, rfl⟩ := Option.map_eq_some_iff.1 h
    exact ⟨fun other => absurd rfl other, fun _ => ⟨y, rfl, read⟩⟩
  · cases h

/-- The operands of EVENT_LOAD that clamping changes (Table 8-2). -/
theorem clampedNumbers_eventTunings (x : EventOperands) :
    let out (number lo hi v : Nat) : List Nat := if lo ≤ v ∧ v ≤ hi then [] else [number]
    clampedNumbers (eventTunings x) = (if x.length.alt = 0 then out 4 1 2591999 x.length.value else [])
      ++ out 7 1 999 x.duration ++ out 11 0 255 x.softness ++ out 12 0 1800 x.preroll ++ out 13 0 600 x.postroll
      ++ (if x.key.presence = 1 then out 19 0 1023 x.key.clip ++ out 20 1 255 x.key.gain else []) := by
  simp only [eventTunings, clampedNumbers_append]
  split <;> split <;> simp [clampedNumbers_cons, clampedNumbers_nil]

/-- The answer of a load (R24, R120). -/
theorem eventLoad_answer (x : EventOperands) (e : EventRecord) {bad : List Nat} (h : clampedNumbers (eventTunings x) = bad) :
    { Answer.taken (eventTunings x) with normalised := e.normalised } =
      ({ result := if bad = [] then .accepted else .clamped, clamped := bad, normalised := e.normalised } : Answer) := by
  rw [Answer.taken_eq, h]

/-! ### The bytes of EVENT_READ (R123) -/

/-- The record and the run results on the two sides of the arm results. -/
theorem slotBytes_eq (c : Counting) (s : Slot) :
    slotBytes c s = (byteOf s.state.code :: optionalPart absentEvent (s.event.map eventBytes))
      ++ optionalPart absentArm (s.arm.map (armBytes c))
      ++ ([byteOf s.run.reason.code] ++ recordedFieldBytes c s.run.recordOn ++ recordedFieldBytes c s.run.recordOff
        ++ [flagByte s.run.substituted]) := by
  simp only [slotBytes, List.append_assoc]

/-! ### The statement -/

/-- Settles O42: the record operand by operand, and the bytes of a slot part by part. -/
theorem slotLoadedClearedRead : Obligations.SlotLoadedClearedRead := by
  constructor
  · intro s off ops n e made c stored source out bad normal answer
    have answer_eq : { Answer.taken (eventTunings ops) with normalised := e.normalised } = answer :=
      eventLoad_answer ops e (clampedNumbers_eventTunings ops)
    refine ⟨?_, fun free => ?_, fun active => ?_⟩
    · simp only [eventRecordOf, Option.bind_eq_bind, Option.bind_eq_some_iff] at made
      obtain ⟨slot, slot_eq, kind, kind_eq, recordIn, recordIn_eq, length, length_eq, transition, transition_eq, start,
        start_eq, reverse, reverse_eq, hold, hold_eq, tracks, tracks_eq, key, key_eq, source1, source1_eq, source2,
        source2_eq, made⟩ := made
      obtain ⟨rfl, rfl⟩ := Prod.mk.inj (Option.some.inj made)
      have holds {x : SourceOperand} {y : EventSource} (h : eventSourceOf c x = some y) : source x y :=
        ⟨(eventSourceOf_eq h).1, storedLabelOf_eq (eventSourceOf_eq h).2⟩
      obtain ⟨label, mark⟩ := recordInOf_eq recordIn_eq
      obtain ⟨value, isOpen⟩ := lengthOf_eq length_eq
      obtain ⟨absent, present⟩ := optionalKeyOf_eq key_eq
      obtain ⟨single, double⟩ := secondSourceOf_eq source2_eq
      refine ⟨slotOf_val slot_eq, ?_, fun zero => ?_, mark, value, isOpen, transitionOf_eq transition_eq,
        structuralOf_eq start_eq, clampTo_eq (by decide) _, rfl, rfl, ?_, ?_, ?_, ?_, ?_, tracksOf_eq tracks_eq, absent,
        fun one => ?_, holds source1_eq, single, fun two => ?_⟩
      · rw [← kindOf_eq kind_eq]
        exact kind.insert_iff
      · obtain ⟨l, rfl, read⟩ := label zero
        exact ⟨l, rfl, storedLabelOf_eq read⟩
      · rw [switchCode_eq_one, switchOf_eq reverse_eq]
      · simp [clampTo_eq]
      · simp [clampTo_eq]
      · simp [clampTo_eq]
      · rw [← holdOf_eq hold_eq]
        exact hold.beforeRoll_iff
      · obtain ⟨k, rfl, read⟩ := present one
        obtain ⟨deck, fill, items⟩ := keyOf_eq read
        exact ⟨k, rfl, deck, storedLabelOf_eq fill, items⟩
      · obtain ⟨y, rfl, read⟩ := double two
        exact ⟨y, rfl, holds read⟩
    · intro loaded
      simp only [exec, execEventLoad, made, Part.loadEvent, if_neg free, answer_eq]
      rfl
    · simp only [exec, execEventLoad, made, Part.loadEvent, if_pos active]
      rfl
  · intro s off n
    refine ⟨fun free => ?_, fun active => ?_, fun k above => ?_, ?_⟩
    · simp only [exec, execEventClear, slotOf_slot, Part.clearSlot, if_neg free]
      rfl
    · simp only [exec, execEventClear, slotOf_slot, Part.clearSlot, if_pos active]
      rfl
    · have none : slotOf k = none := dif_neg (Nat.not_lt_of_le above)
      simp only [exec, execEventClear, none]
      rfl
    · intro c x flag half two three label entry record recorded reasons before after answer
      have half_eq (f : FieldId) : half f = fieldBit f := by cases f <;> rfl
      have label_carries (l : StoredLabel) : Carries l.bytes (label l) :=
        labelBytes_carries l.label l.drop l.normalised (half_eq _)
      have entry_carries (y : EventSource) : Carries (eventSourceBytes y) (entry y) :=
        .cons (byteOf_ofInt _) (label_carries _)
      have recorded_carries (f : Option Nat) : Carries (recordedFieldBytes c f) (recorded f) := by
        cases f with
        | none => rfl
        | some v => exact .cons rfl (formedLabel_carries c _ (half_eq _))
      have record_carries (e : EventRecord) : Carries (eventBytes e) (record e) := by
        refine ((((((((((Carries.append ?kind ?recordIn).append ?length).append ?transition).append (.three _)).append
          (.two _)).append ?tables).append (.two _)).append (.two _)).append ?hold).append ?key).append ?sources
        case kind => exact .one (by cases e.kind <;> rfl)
        case recordIn =>
          cases e.recordIn with
          | none => rfl
          | some l => exact .cons rfl (label_carries l)
        case length =>
          cases e.length with
          | none => rfl
          | some v => exact .cons rfl (.three v)
        case transition => exact .one (by cases e.transition <;> rfl)
        case tables =>
          exact .cons (byteOf_ofInt _) (.cons (byteOf_ofInt _) (.cons (flagByte_ofInt _) (.one (byteOf_ofInt _))))
        case hold => exact .cons (by cases e.hold <;> rfl) (.one (byteOf_ofInt _))
        case key =>
          cases e.key with
          | none => rfl
          | some k =>
            exact .cons rfl ((((((Carries.cons (byteOf_ofInt _) (label_carries _)).append
              (.one (by cases k.keyInput <;> rfl))).append (.two _)).append
              (.cons (byteOf_ofInt _) (.one (flagByte_ofInt _)))).append (.three _)).append (.three _))
        case sources =>
          cases e.source2 with
          | none => exact .cons rfl (entry_carries _)
          | some y => exact .cons rfl ((entry_carries _).append (entry_carries y))
      have before_carries : Carries (byteOf x.state.code :: optionalPart absentEvent (x.event.map eventBytes)) before := by
        refine .cons (by cases x.state <;> rfl) ?_
        cases x.event with
        | none => rfl
        | some e => exact .cons rfl (record_carries e)
      have after_carries : Carries ([byteOf x.run.reason.code] ++ recordedFieldBytes c x.run.recordOn
          ++ recordedFieldBytes c x.run.recordOff ++ [flagByte x.run.substituted]) after :=
        (((Carries.one (by cases x.run.reason <;> rfl)).append (recorded_carries _)).append (recorded_carries _)).append
          (.one (flagByte_ofInt _))
      have payload_eq : slotBytes s.part.counting (s.part.slot n) = answer.payload := by
        rw [slotBytes_eq]
        exact congrArg₂ (· ++ ·) (congrArg₂ (· ++ ·) before_carries (by cases x.arm <;> rfl)) after_carries
      simp only [exec, execEventRead, slotOf_slot]
      rw [payload_eq]
      rfl

end Sys2Proof.Machine
end

section
/-! ## The packet of a host command is read back (O20)

First the words of a packet (R19, R20), then the numbers and labels of a payload (R37), then command by command. -/

namespace Sys2Proof.Machine

open Sys2Proof

/-! ### Words (2.11.1) -/

theorem byteOf_toNat {v : Nat} (h : v < 256) : (byteOf v).toNat = v := by
  simp only [byteOf, BitVec.toNat_ofNat]
  omega

/-- The number of a byte's word: the byte, and its parity bit or the inverse of it. -/
theorem wordOf_toNat (b : Byte) : (wordOf b).toNat = b.toNat + if oddOnes b then 256 else 512 := by
  have small := b.isLt
  simp only [wordOf, BitVec.toNat_ofNat]
  split <;> omega

theorem wordByte_wordOf (b : Byte) : wordByte (wordOf b) = b := by
  have small := b.isLt
  apply BitVec.eq_of_toNat_eq
  simp only [wordByte, BitVec.toNat_setWidth, wordOf_toNat]
  split <;> omega

/-- Bit 9 of a word differs from bit 8 where the word's upper two bits are 01 or 10. -/
theorem Word10.bits (w : Word10) : w.getLsbD 9 = decide (512 ≤ w.toNat) ∧ w.getLsbD 8 = decide (256 ≤ w.toNat % 512) := by
  have small := w.isLt
  constructor
  · rw [BitVec.getLsbD, Nat.testBit_eq_decide_div_mod_eq]
    congr 1
    simp only [eq_iff_iff]
    omega
  · rw [BitVec.getLsbD, Nat.testBit_eq_decide_div_mod_eq]
    congr 1
    simp only [eq_iff_iff]
    omega

/-- A word that the host writes passes its test (R20). -/
theorem wordGood_wordOf (b : Byte) : wordGood (wordOf b) = true := by
  have small := b.isLt
  have low : (wordOf b).setWidth 8 = b := wordByte_wordOf b
  obtain ⟨high, parity⟩ := Word10.bits (wordOf b)
  rw [wordGood, low, high, parity, wordOf_toNat]
  cases oddOnes b
  · simp
    omega
  · have h1 : ¬ 512 ≤ b.toNat + 256 := by omega
    have h2 : 256 ≤ (b.toNat + 256) % 512 := by omega
    simp [h2]
    omega

theorem nineBitSum_lt (ws : List Word10) : nineBitSum ws < 512 := by
  unfold nineBitSum
  induction ws using List.reverseRecOn with
  | nil => decide
  | append_singleton ws w ih =>
    rw [List.foldl_append]
    exact Nat.mod_lt _ (by decide)

/-- The check word that the host writes passes its test (R20). -/
theorem checkGood_checkWord (ws : List Word10) : checkGood (checkWord ws) ws = true := by
  have small := nineBitSum_lt ws
  have value : (checkWord ws).toNat = if nineBitSum ws < 256 then nineBitSum ws + 512 else nineBitSum ws := by
    simp only [checkWord, BitVec.toNat_ofNat]
    split <;> omega
  obtain ⟨high, parity⟩ := Word10.bits (checkWord ws)
  rw [checkGood, high, parity, value]
  split
  · have h1 : (nineBitSum ws + 512) % 512 = nineBitSum ws := by omega
    simp [h1]
    omega
  · have h1 : nineBitSum ws % 512 = nineBitSum ws := by omega
    simp [h1]
    omega

/-! ### The packet (R19, R20) -/

/-- The payload of a packet that the host writes, whatever follows it on the line. -/
theorem payloadOf_packet (kind : Byte) {payload : List Byte} (h : payload.length ≤ 200) (after : List Word10) :
    payloadOf (bodyWords kind payload ++ checkWord (bodyWords kind payload) :: after) = some payload := by
  have length : (wordByte (wordOf (byteOf payload.length))).toNat = payload.length := by
    rw [wordByte_wordOf, byteOf_toNat (by omega)]
  have taken (w : Word10) : (payload.map wordOf ++ w :: after).take payload.length = payload.map wordOf :=
    List.take_left' (List.length_map _)
  have check (w : Word10) : (payload.map wordOf ++ w :: after).getD payload.length 0 = w := by
    simp [List.getD_eq_getElem?_getD]
  have good : (payload.map wordOf).all wordGood = true := by
    simp [wordGood_wordOf]
  have bytes : (payload.map wordOf).map wordByte = payload := by
    rw [List.map_map]
    exact List.map_id'' wordByte_wordOf payload
  have passes := checkGood_checkWord (bodyWords kind payload)
  simp only [bodyWords, List.cons_append, payloadOf, length, taken, check, good, wordGood_wordOf, bytes]
  rw [bodyWords] at passes
  simp [h, passes]

/-- A packet that the host writes on a window line comes as its kind and payload say. -/
theorem readLine_packetLine (off : Nat) {kind : Nat} {payload : List Byte} (after : List Word10) (known : kind < 256)
    (short : payload.length ≤ 200) :
    readLine off (packetLine kind payload ++ after) = some (lookUp off kind payload) := by
  have received : kindAsReceived (bodyWords (byteOf kind) payload ++ checkWord (bodyWords (byteOf kind) payload) :: after)
      = kind := (congrArg BitVec.toNat (wordByte_wordOf _)).trans (byteOf_toNat known)
  have line : packetLine kind payload ++ after =
      0x0A5#10 :: 0x35A#10 :: 0x0A5#10 :: (bodyWords (byteOf kind) payload ++ checkWord (bodyWords (byteOf kind) payload) :: after) := by
    simp [packetLine, packetWords, leadWords]
  rw [line, readLine]
  simp only [payloadOf_packet _ short, received]
  rfl

/-! ### Numbers and labels of a payload (R37) -/

theorem numOf_numBytes_two {v : Nat} (h : numberFits 2 v = true) : numOf (numBytes 2 v) = v := by
  have small : v < 65536 := by simpa [numberFits] using h
  simp only [numBytes_two, numOf, List.foldl, BitVec.toNat_ofInt]
  omega

theorem numOf_numBytes_three {v : Nat} (h : numberFits 3 v = true) : numOf (numBytes 3 v) = v := by
  have small : v < 16777216 := by simpa [numberFits] using h
  simp only [numBytes_three, numOf, List.foldl, BitVec.toNat_ofInt]
  omega

theorem signed_numBytes_two {v : Int} (h : signedFits v = true) : (BitVec.ofNat 16 (numOf (numBytes 2 v))).toInt = v := by
  have range : -32768 ≤ v ∧ v ≤ 32767 := by simpa [signedFits] using h
  have value : numOf (numBytes 2 v) = (v % 65536).toNat := by
    simp only [numBytes_two, numOf, List.foldl, BitVec.toNat_ofInt]
    omega
  rw [value, BitVec.toInt_eq_toNat_cond, BitVec.toNat_ofNat]
  split <;> omega

/-- The five bytes of a label give the label. -/
theorem rawLabel_read {l : RawLabel} (h : l.fits = true) :
    ({ hh := (byteOf l.hh).toNat, mm := (byteOf l.mm).toNat, ss := (byteOf l.ss).toNat, ff := (byteOf l.ff).toNat
       flags := (byteOf l.flags).toNat } : RawLabel) = l := by
  simp only [RawLabel.fits, bytesFit, List.all_cons, List.all_nil, Bool.and_true, Bool.and_eq_true, decide_eq_true_eq] at h
  obtain ⟨hh, mm, ss, ff, flags⟩ := h
  rw [byteOf_toNat hh, byteOf_toNat mm, byteOf_toNat ss, byteOf_toNat ff, byteOf_toNat flags]

/-! ### Command by command (R21, R22, Table 2-8) -/

/-- The packet of the command, if it is well-formed, is looked up as the command; its kind fits a byte and its payload a
packet. -/
def ReadsBack (i : Instr) : Prop :=
  i.wellFormed = true → ∀ off kind payload, hostPacket i = some (off, kind, payload) →
    kind < 256 ∧ payload.length ≤ 200 ∧ lookUp off kind payload = i

theorem knownKinds_lt {kind : Nat} (h : kind ∈ knownKinds) : kind < 256 := by
  revert kind
  decide

/-- Every kind but EVENT_LOAD takes a few bytes. -/
theorem payloadLength_le {kind n : Nat} {bs : List Byte} (h : payloadLength kind bs = some n) (other : kind ≠ 0x50) :
    n ≤ 200 := by
  unfold payloadLength at h
  split at h <;> simp_all <;> omega

namespace ReadsBack

variable {i : Instr} {o k : Nat}

theorem of_event (h : hostPacket i = none) : ReadsBack i := by
  intro _ off kind payload packet
  rw [h] at packet
  cases packet

/-- A command whose packet has the right length is read back where its operands are. -/
theorem of_packet {bs : List Byte} (packet : hostPacket i = some (o, k, bs)) (fit : Laws.PacketFits.Statement i)
    (other : k ≠ 0x50) (back : i.wellFormed = true → commandOf o k bs = i) : ReadsBack i := by
  intro fits off kind payload packet'
  obtain ⟨rfl, rfl, rfl⟩ : o = off ∧ k = kind ∧ bs = payload := by simpa [packet] using packet'
  obtain ⟨known, length⟩ := fit fits _ _ _ packet
  refine ⟨knownKinds_lt known, payloadLength_le length other, ?_⟩
  simp [lookUp, length, other, back fits]

/-- A command whose operands are numbers of one byte. -/
theorem of_bytes {ns : List Nat} (packet : hostPacket i = some (o, k, ns.map byteOf)) (fit : Laws.PacketFits.Statement i)
    (other : k ≠ 0x50) (fits_eq : i.wellFormed = (offsetFits o && bytesFit ns))
    (back : (∀ j, byteAt (ns.map byteOf) j = ns.getD j 0) → commandOf o k (ns.map byteOf) = i) : ReadsBack i := by
  refine of_packet packet fit other fun fits => back fun j => ?_
  have small : ∀ n ∈ ns, n < 256 := by
    obtain ⟨-, bytes⟩ := (Bool.and_eq_true _ _).mp (fits_eq ▸ fits)
    simpa [bytesFit] using bytes
  by_cases inside : j < ns.length
  · simp [byteAt, List.getD_eq_getElem?_getD, inside, byteOf_toNat (small _ (List.getElem_mem inside))]
  · simp [byteAt, List.getD_eq_getElem?_getD, inside]

end ReadsBack

/-! ### Commands with numbers of more bytes, labels or lists -/

theorem clearNotices_readsBack (off mask : Nat) : ReadsBack (.clearNotices off mask) :=
  .of_packet rfl (Laws.PacketFits.clearNotices off mask) (by decide) fun fits => by
    obtain ⟨-, number⟩ := (Bool.and_eq_true _ _).mp fits
    exact congrArg _ (numOf_numBytes_three number)

theorem noticeMask_readsBack (off mask : Nat) : ReadsBack (.noticeMask off mask) :=
  .of_packet rfl (Laws.PacketFits.noticeMask off mask) (by decide) fun fits => by
    obtain ⟨-, number⟩ := (Bool.and_eq_true _ _).mp fits
    exact congrArg _ (numOf_numBytes_three number)

theorem resetPartFull_readsBack (off scope : Nat) : ReadsBack (.resetPartFull off scope) :=
  .of_packet rfl (Laws.PacketFits.resetPartFull off scope) (by decide) fun fits => by
    simp [Instr.wellFormed, bytesFit] at fits
    simp [commandOf, byteAt, byteOf_toNat, fits]

theorem markPush_readsBack (off deck : Nat) (x : LabelChoice) : ReadsBack (.markPush off deck x) :=
  .of_packet rfl (Laws.PacketFits.markPush off deck x) (by decide) fun fits => by
    simp [Instr.wellFormed, LabelChoice.fits, bytesFit] at fits
    obtain ⟨⟨-, deck_fits⟩, ⟨alt, label⟩, -⟩ := fits
    show Instr.markPush off (byteOf deck).toNat { alt := (byteOf x.alt).toNat, label := _ } = _
    rw [byteOf_toNat deck_fits, byteOf_toNat alt]
    exact congrArg _ (congrArg _ (rawLabel_read label))

theorem deckDirect_readsBack (off deck command : Nat) (v : Int) (cue : RawLabel) :
    ReadsBack (.deckDirect off deck command v cue) :=
  .of_packet rfl (Laws.PacketFits.deckDirect off deck command v cue) (by decide) fun fits => by
    simp [Instr.wellFormed, bytesFit] at fits
    obtain ⟨⟨⟨-, deck_fits, command_fits⟩, speed⟩, label⟩ := fits
    show Instr.deckDirect off (byteOf deck).toNat (byteOf command).toNat (BitVec.ofNat 16 (numOf (numBytes 2 v))).toInt _ = _
    rw [byteOf_toNat deck_fits, byteOf_toNat command_fits, signed_numBytes_two speed]
    exact congrArg _ (rawLabel_read label)

theorem keyParams_readsBack (off a b c clip e f : Nat) : ReadsBack (.keyParams off a b c clip e f) :=
  .of_packet rfl (Laws.PacketFits.keyParams off a b c clip e f) (by decide) fun fits => by
    simp [Instr.wellFormed, bytesFit] at fits
    obtain ⟨⟨-, ha, hb, hc, he, hf⟩, number⟩ := fits
    show Instr.keyParams off (byteOf a).toNat (byteOf b).toNat (byteOf c).toNat (numOf (numBytes 2 clip)) (byteOf e).toNat
      (byteOf f).toNat = _
    rw [byteOf_toNat ha, byteOf_toNat hb, byteOf_toNat hc, numOf_numBytes_two number, byteOf_toNat he, byteOf_toNat hf]

theorem autoTake_readsBack (off a duration c d e f : Nat) : ReadsBack (.autoTake off a duration c d e f) :=
  .of_packet rfl (Laws.PacketFits.autoTake off a duration c d e f) (by decide) fun fits => by
    simp [Instr.wellFormed, bytesFit] at fits
    obtain ⟨⟨-, ha, hc, hd, he, hf⟩, number⟩ := fits
    show Instr.autoTake off (byteOf a).toNat (numOf (numBytes 2 duration)) (byteOf c).toNat (byteOf d).toNat (byteOf e).toNat
      (byteOf f).toNat = _
    rw [byteOf_toNat ha, numOf_numBytes_two number, byteOf_toNat hc, byteOf_toNat hd, byteOf_toNat he, byteOf_toNat hf]

/-- Two bytes a point: past i points stand the bytes of the others. -/
theorem points_drop (points : List Nat) (i : Nat) :
    (points.flatMap (fun v : Nat => numBytes 2 v)).drop (2 * i) = (points.drop i).flatMap (fun v : Nat => numBytes 2 v) := by
  induction i generalizing points with
  | zero => rfl
  | succ i ih =>
    cases points with
    | nil => simp
    | cons v vs =>
      rw [Nat.mul_succ, Nat.add_comm, ← List.drop_drop, List.flatMap_cons,
        List.drop_left' (Laws.PacketFits.numBytes_length 2 _), ih, List.drop_succ_cons]

/-- The host's packet writes each point as an integer. -/
theorem points_bytes (points : List Nat) :
    points.flatMap (fun v => numBytes 2 v) = points.flatMap (fun v : Nat => numBytes 2 v) := by
  induction points with
  | nil => rfl
  | cons v vs ih => simp_all

/-- The points are read back one after another. -/
theorem points_read {points : List Nat} (fit : ∀ v ∈ points, numberFits 2 v = true) (b : Byte) :
    (List.range points.length).map (fun i => numberAt (b :: points.flatMap (fun v : Nat => numBytes 2 v)) (1 + 2 * i) 2) = points := by
  refine List.ext_getElem (by simp) fun i _ inside => ?_
  have past : (b :: points.flatMap (fun v : Nat => numBytes 2 v)).drop (1 + 2 * i)
      = numBytes 2 (points[i] : Nat) ++ (points.drop (i + 1)).flatMap (fun v : Nat => numBytes 2 v) := by
    rw [Nat.add_comm, List.drop_succ_cons, points_drop, List.drop_eq_getElem_cons inside, List.flatMap_cons]
  rw [List.getElem_map, List.getElem_range, numberAt, past, List.take_left' (Laws.PacketFits.numBytes_length 2 _)]
  exact numOf_numBytes_two (fit _ (List.getElem_mem inside))

theorem curveLoad_readsBack (off n : Nat) (points : List Nat) : ReadsBack (.curveLoad off n points) :=
  .of_packet rfl (Laws.PacketFits.curveLoad off n points) (by decide) fun fits => by
    simp only [Instr.wellFormed, bytesFit, List.all_cons, List.all_nil, Bool.and_true, Bool.and_eq_true, decide_eq_true_eq,
      beq_iff_eq, List.all_eq_true] at fits
    obtain ⟨⟨⟨-, curve⟩, length⟩, numbers⟩ := fits
    have read := points_read numbers (byteOf n)
    rw [length, ← points_bytes] at read
    show Instr.curveLoad off (byteOf n).toNat _ = _
    rw [byteOf_toNat curve]
    exact congrArg _ read

/-! ### EVENT_LOAD (Table 8-2) -/

theorem LabelChoice.read {x : LabelChoice} (h : x.fits = true) :
    ({ alt := (byteOf x.alt).toNat
       label := { hh := (byteOf x.label.hh).toNat, mm := (byteOf x.label.mm).toNat, ss := (byteOf x.label.ss).toNat
                  ff := (byteOf x.label.ff).toNat, flags := (byteOf x.label.flags).toNat } } : LabelChoice) = x := by
  simp only [LabelChoice.fits, bytesFit, List.all_cons, List.all_nil, Bool.and_true, Bool.and_eq_true,
    decide_eq_true_eq] at h
  obtain ⟨⟨alt, label⟩, -⟩ := h
  rw [byteOf_toNat alt, rawLabel_read label]

theorem SourceOperand.read {x : SourceOperand} (h : x.fits = true) (rest : List Byte) :
    sourceEntryAt (sourceOperandBytes x ++ rest) 0 = x := by
  simp only [SourceOperand.fits, bytesFit, List.all_cons, List.all_nil, Bool.and_true, Bool.and_eq_true,
    decide_eq_true_eq] at h
  obtain ⟨deck, label⟩ := h
  show ({ deck := (byteOf x.deck).toNat, play := _ } : SourceOperand) = x
  rw [byteOf_toNat deck]
  exact congrArg _ (rawLabel_read label)

theorem KeyOperands.read {x : KeyOperands} (h : x.fits = true) (rest : List Byte) :
    keyAt (keyOperandBytes x ++ rest) 0 = x := by
  simp only [KeyOperands.fits, bytesFit, List.all_cons, List.all_nil, Bool.and_true, Bool.and_eq_true,
    decide_eq_true_eq] at h
  obtain ⟨⟨⟨⟨⟨⟨presence, fillDeck, keyInput, gain, invert⟩, label⟩, clip⟩, on⟩, off⟩, -⟩ := h
  show ({ presence := (byteOf x.presence).toNat, fillDeck := (byteOf x.fillDeck).toNat, fillIn := _
          keyInput := (byteOf x.keyInput).toNat, clip := numOf (numBytes 2 x.clip), gain := (byteOf x.gain).toNat
          invert := (byteOf x.invert).toNat, onOffset := numOf (numBytes 3 x.onOffset)
          offOffset := numOf (numBytes 3 x.offOffset) } : KeyOperands) = x
  rw [byteOf_toNat presence, byteOf_toNat fillDeck, byteOf_toNat keyInput, numOf_numBytes_two clip, byteOf_toNat gain,
    byteOf_toNat invert, numOf_numBytes_three on, numOf_numBytes_three off]
  exact congrArg (fun l => { x with fillIn := l }) (rawLabel_read label)

theorem NumberChoice.read {x : NumberChoice} (h : x.fits = true) :
    ({ alt := (byteOf x.alt).toNat, value := numOf (numBytes 3 x.value) } : NumberChoice) = x := by
  simp only [NumberChoice.fits, bytesFit, List.all_cons, List.all_nil, Bool.and_true, Bool.and_eq_true,
    decide_eq_true_eq] at h
  obtain ⟨⟨alt, value⟩, -⟩ := h
  rw [byteOf_toNat alt, numOf_numBytes_three value]

/-- The source list holds the entries that its count asks for, and an entry past the count holds zero. -/
theorem sources_read {x : EventOperands} (h : sourcesFit x = true) :
    sourceEntryAt (sourceListBytes x) 0 = x.entry1 ∧ sourceEntryAt (sourceListBytes x) 6 = x.entry2 := by
  simp only [sourcesFit, Bool.and_eq_true, Bool.or_eq_true, decide_eq_true_eq, beq_iff_eq] at h
  obtain ⟨⟨⟨⟨-, first⟩, second⟩, past1⟩, past2⟩ := h
  obtain none | one | more : x.sourceCount = 0 ∨ x.sourceCount = 1 ∨ 2 ≤ x.sourceCount := by omega
  · have list : sourceListBytes x = [] := by rw [sourceListBytes, none]; rfl
    rw [list, past1.resolve_left (by omega), past2.resolve_left (by omega)]
    exact ⟨rfl, rfl⟩
  · have list : sourceListBytes x = sourceOperandBytes x.entry1 ++ [] := by
      rw [sourceListBytes, one, List.append_assoc, List.append_nil]
      exact List.take_left' rfl
    rw [list, past2.resolve_left (by omega)]
    exact ⟨SourceOperand.read first [], rfl⟩
  · have list : sourceListBytes x = sourceOperandBytes x.entry1 ++ (sourceOperandBytes x.entry2
        ++ (zeros 138).take (6 * x.sourceCount - 12)) := by
      have length1 : (sourceOperandBytes x.entry1).length = 6 := rfl
      have length2 : (sourceOperandBytes x.entry2).length = 6 := rfl
      rw [sourceListBytes, List.append_assoc, List.take_append, List.take_append, length1, length2,
        List.take_of_length_le (by omega), List.take_of_length_le (by omega), Nat.sub_sub]
    rw [list]
    exact ⟨SourceOperand.read first _, SourceOperand.read second ((zeros 138).take (6 * x.sourceCount - 12))⟩

theorem byteAt_append {front : List Byte} {n : Nat} (h : front.length = n) (back : List Byte) (i : Nat) :
    byteAt (front ++ back) (n + i) = byteAt back i := by
  subst h
  simp [byteAt, List.getD_eq_getElem?_getD, List.getElem?_append_right]

theorem numberAt_append {front : List Byte} {n : Nat} (h : front.length = n) (back : List Byte) (i m : Nat) :
    numberAt (front ++ back) (n + i) m = numberAt back i m := by
  rw [numberAt, ← List.drop_drop, List.drop_left' h, numberAt]

theorem sourceEntryAt_append {front : List Byte} {n : Nat} (h : front.length = n) (back : List Byte) (i : Nat) :
    sourceEntryAt (front ++ back) (n + i) = sourceEntryAt back i := by
  simp only [sourceEntryAt, labelAt, Nat.add_assoc, byteAt_append h]

theorem keyAt_append {front : List Byte} {n : Nat} (h : front.length = n) (back : List Byte) (i : Nat) :
    keyAt (front ++ back) (n + i) = keyAt back i := by
  simp only [keyAt, labelAt, Nat.add_assoc, byteAt_append h, numberAt_append h]

/-- The bytes of EVENT_LOAD before its key. -/
def eventLeadBytes (x : EventOperands) : List Byte :=
  [byteOf x.slot, byteOf x.kind] ++ labelChoiceBytes x.recordIn ++ numberChoiceBytes x.length ++ [byteOf x.transition]
  ++ numBytes 3 x.start ++ numBytes 2 x.duration ++ [byteOf x.pattern, byteOf x.curve, byteOf x.reverse, byteOf x.softness]
  ++ numBytes 2 x.preroll ++ numBytes 2 x.postroll ++ [byteOf x.hold, byteOf x.tracks]

theorem eventOperandBytes_key (x : EventOperands) :
    keyAt (eventOperandBytes x) 28 = keyAt (keyOperandBytes x.key ++ ([byteOf x.sourceCount] ++ sourceListBytes x)) 0 := by
  have bytes : eventOperandBytes x =
      eventLeadBytes x ++ (keyOperandBytes x.key ++ ([byteOf x.sourceCount] ++ sourceListBytes x)) := by
    simp only [eventOperandBytes, eventLeadBytes, List.append_assoc]
  rw [bytes]
  exact keyAt_append rfl _ 0

theorem eventOperandBytes_source (x : EventOperands) (i : Nat) :
    sourceEntryAt (eventOperandBytes x) (47 + i) = sourceEntryAt (sourceListBytes x) i :=
  sourceEntryAt_append (front := eventLeadBytes x ++ keyOperandBytes x.key ++ [byteOf x.sourceCount]) rfl _ i

section
variable {x : EventOperands}

/-- The payload as one list, so that its places can be counted off. -/
theorem eventOperandBytes_eq (x : EventOperands) : eventOperandBytes x =
    byteOf x.slot :: byteOf x.kind :: (labelChoiceBytes x.recordIn ++ (numberChoiceBytes x.length
    ++ byteOf x.transition :: (numBytes 3 x.start ++ (numBytes 2 x.duration
    ++ byteOf x.pattern :: byteOf x.curve :: byteOf x.reverse :: byteOf x.softness
    :: (numBytes 2 x.preroll ++ (numBytes 2 x.postroll ++ byteOf x.hold :: byteOf x.tracks
    :: (keyOperandBytes x.key ++ byteOf x.sourceCount :: sourceListBytes x))))))) := by
  simp [eventOperandBytes]

/-- Where the numbers of one byte stand in an EVENT_LOAD. -/
theorem eventOperandBytes_bytes (x : EventOperands) :
    [0, 1, 12, 18, 19, 20, 21, 26, 27, 46].map (byteAt (eventOperandBytes x)) = [x.slot, x.kind, x.transition, x.pattern,
      x.curve, x.reverse, x.softness, x.hold, x.tracks, x.sourceCount].map (fun n => (byteOf n).toNat) := by
  rw [eventOperandBytes_eq]
  rfl

theorem eventOperandBytes_recordIn (h : x.recordIn.fits = true) :
    labelChoiceAt (eventOperandBytes x) 2 = x.recordIn := by
  rw [eventOperandBytes_eq]
  exact LabelChoice.read h

theorem eventOperandBytes_length (h : x.length.fits = true) : lengthChoiceAt (eventOperandBytes x) 8 = x.length := by
  rw [eventOperandBytes_eq]
  exact NumberChoice.read h

theorem eventOperandBytes_start (h : numberFits 3 x.start = true) :
    numberAt (eventOperandBytes x) 13 3 = x.start := by
  rw [eventOperandBytes_eq]
  exact numOf_numBytes_three h

theorem eventOperandBytes_duration (h : numberFits 2 x.duration = true) :
    numberAt (eventOperandBytes x) 16 2 = x.duration := by
  rw [eventOperandBytes_eq]
  exact numOf_numBytes_two h

theorem eventOperandBytes_preroll (h : numberFits 2 x.preroll = true) :
    numberAt (eventOperandBytes x) 22 2 = x.preroll := by
  rw [eventOperandBytes_eq]
  exact numOf_numBytes_two h

theorem eventOperandBytes_postroll (h : numberFits 2 x.postroll = true) :
    numberAt (eventOperandBytes x) 24 2 = x.postroll := by
  rw [eventOperandBytes_eq]
  exact numOf_numBytes_two h

end

theorem eventOperands_read {x : EventOperands} (h : x.fits = true) : eventOperandsOf (eventOperandBytes x) = x := by
  simp only [EventOperands.fits, bytesFit, List.all_cons, List.all_nil, Bool.and_true, Bool.and_eq_true,
    decide_eq_true_eq] at h
  obtain ⟨⟨⟨⟨⟨⟨⟨⟨⟨slot, kind, transition, pattern, curve, reverse, softness, hold, tracks⟩, recordIn⟩, length⟩, start⟩,
    duration⟩, preroll⟩, postroll⟩, key⟩, sources⟩ := h
  obtain ⟨first, second⟩ := sources_read sources
  have count : x.sourceCount < 256 := by
    simp [sourcesFit] at sources
    omega
  have key_eq : keyAt (eventOperandBytes x) 28 = x.key := (eventOperandBytes_key x).trans (KeyOperands.read key _)
  have entry1 : sourceEntryAt (eventOperandBytes x) 47 = x.entry1 := (eventOperandBytes_source x 0).trans first
  have entry2 : sourceEntryAt (eventOperandBytes x) 53 = x.entry2 := (eventOperandBytes_source x 6).trans second
  have bytes := eventOperandBytes_bytes x
  simp only [List.map_cons, List.map_nil, byteOf_toNat slot, byteOf_toNat kind, byteOf_toNat transition, byteOf_toNat pattern,
    byteOf_toNat curve, byteOf_toNat reverse, byteOf_toNat softness, byteOf_toNat hold, byteOf_toNat tracks,
    byteOf_toNat count, List.cons.injEq] at bytes
  obtain ⟨slot_eq, kind_eq, transition_eq, pattern_eq, curve_eq, reverse_eq, softness_eq, hold_eq, tracks_eq, count_eq, -⟩ :=
    bytes
  rw [eventOperandsOf, slot_eq, kind_eq, eventOperandBytes_recordIn recordIn, eventOperandBytes_length length, transition_eq,
    eventOperandBytes_start start, eventOperandBytes_duration duration, pattern_eq, curve_eq, reverse_eq, softness_eq,
    eventOperandBytes_preroll preroll, eventOperandBytes_postroll postroll, hold_eq, tracks_eq, key_eq, count_eq, entry1,
    entry2]

theorem eventLoad_readsBack (off : Nat) (ops : EventOperands) : ReadsBack (.eventLoad off ops) := by
  intro fits o kind payload packet
  obtain ⟨-, fit⟩ := Laws.PacketFits.eventLoad off ops fits _ _ _ packet
  cases packet
  have operands : ops.fits = true := ((Bool.and_eq_true _ _).mp fits).2
  have entries : ops.sourceCount ≤ 25 := by
    simp [EventOperands.fits, sourcesFit] at operands
    omega
  have length : (eventOperandBytes ops).length = 47 + 6 * ops.sourceCount := by
    show (eventLeadBytes ops ++ keyOperandBytes ops.key ++ [byteOf ops.sourceCount] ++ sourceListBytes ops).length = _
    rw [List.length_append, Laws.PacketFits.sourceList_length entries]
    rfl
  refine ⟨by decide, by omega, ?_⟩
  rw [lookUp, fit]
  refine (if_pos ⟨rfl, fun _ => by omega⟩).trans ?_
  exact congrArg _ (eventOperands_read operands)

/-- Every well-formed command's packet is looked up as the command. -/
theorem readsBack (i : Instr) : ReadsBack i := by
  cases i with
  | ctrlLines off a b c d =>
    exact .of_bytes (ns := [a, b, c, d]) rfl (Laws.PacketFits.ctrlLines off a b c d) (by decide) rfl fun at_ => by
      simp only [commandOf, at_, List.getD_cons_zero, List.getD_cons_succ]
  | clearNotices off mask => exact clearNotices_readsBack off mask
  | noticeMask off mask => exact noticeMask_readsBack off mask
  | resetPartFull off scope => exact resetPartFull_readsBack off scope
  | resetPartEngine off => exact .of_packet rfl (Laws.PacketFits.resetPartEngine off) (by decide) fun _ => rfl
  | inputConfig off a b c d e =>
    exact .of_bytes (ns := [a, b, c, d, e]) rfl (Laws.PacketFits.inputConfig off a b c d e) (by decide) rfl fun at_ => by
      simp only [commandOf, at_, List.getD_cons_zero, List.getD_cons_succ]
  | substPolicy off a b =>
    exact .of_bytes (ns := [a, b]) rfl (Laws.PacketFits.substPolicy off a b) (by decide) rfl fun at_ => by
      simp only [commandOf, at_, List.getD_cons_zero, List.getD_cons_succ]
  | tcConfig off a b c d e =>
    exact .of_bytes (ns := [a, b, c, d, e]) rfl (Laws.PacketFits.tcConfig off a b c d e) (by decide) rfl fun at_ => by
      simp only [commandOf, at_, List.getD_cons_zero, List.getD_cons_succ]
  | markPush off deck x => exact markPush_readsBack off deck x
  | markPop off => exact .of_packet rfl (Laws.PacketFits.markPop off) (by decide) fun _ => rfl
  | markClear off => exact .of_packet rfl (Laws.PacketFits.markClear off) (by decide) fun _ => rfl
  | deckAssign off a b c =>
    exact .of_bytes (ns := [a, b, c]) rfl (Laws.PacketFits.deckAssign off a b c) (by decide) rfl fun at_ => by
      simp only [commandOf, at_, List.getD_cons_zero, List.getD_cons_succ]
  | deckParams off a b c d e f g =>
    exact .of_bytes (ns := [a, b, c, d, e, f, g]) rfl (Laws.PacketFits.deckParams off a b c d e f g) (by decide) rfl fun at_ => by
      simp only [commandOf, at_, List.getD_cons_zero, List.getD_cons_succ]
  | deckRead off deck =>
    exact .of_bytes (ns := [deck]) rfl (Laws.PacketFits.deckRead off deck) (by decide) rfl fun at_ => congrArg _ (at_ 0)
  | deckDirect off deck command v cue => exact deckDirect_readsBack off deck command v cue
  | chaseParams off a b c d e f =>
    exact .of_bytes (ns := [a, b, c, d, e, f]) rfl (Laws.PacketFits.chaseParams off a b c d e f) (by decide) rfl fun at_ => by
      simp only [commandOf, at_, List.getD_cons_zero, List.getD_cons_succ]
  | eventLoad off ops => exact eventLoad_readsBack off ops
  | eventClear off slot =>
    exact .of_bytes (ns := [slot]) rfl (Laws.PacketFits.eventClear off slot) (by decide) rfl fun at_ => congrArg _ (at_ 0)
  | eventRead off slot =>
    exact .of_bytes (ns := [slot]) rfl (Laws.PacketFits.eventRead off slot) (by decide) rfl fun at_ => congrArg _ (at_ 0)
  | eventArm off slot =>
    exact .of_bytes (ns := [slot]) rfl (Laws.PacketFits.eventArm off slot) (by decide) rfl fun at_ => congrArg _ (at_ 0)
  | listRun off slot =>
    exact .of_bytes (ns := [slot]) rfl (Laws.PacketFits.listRun off slot) (by decide) rfl fun at_ => congrArg _ (at_ 0)
  | listStop off => exact .of_packet rfl (Laws.PacketFits.listStop off) (by decide) fun _ => rfl
  | abort off => exact .of_packet rfl (Laws.PacketFits.abort off) (by decide) fun _ => rfl
  | release off => exact .of_packet rfl (Laws.PacketFits.release off) (by decide) fun _ => rfl
  | endOpen off => exact .of_packet rfl (Laws.PacketFits.endOpen off) (by decide) fun _ => rfl
  | guardLimit off limit =>
    exact .of_bytes (ns := [limit]) rfl (Laws.PacketFits.guardLimit off limit) (by decide) rfl fun at_ => congrArg _ (at_ 0)
  | xptSet off a b c =>
    exact .of_bytes (ns := [a, b, c]) rfl (Laws.PacketFits.xptSet off a b c) (by decide) rfl fun at_ => by
      simp only [commandOf, at_, List.getD_cons_zero, List.getD_cons_succ]
  | keyParams off a b c clip e f => exact keyParams_readsBack off a b c clip e f
  | autoTake off a duration c d e f => exact autoTake_readsBack off a duration c d e f
  | patternLoad off a b c d e =>
    exact .of_bytes (ns := [a, b, c, d, e]) rfl (Laws.PacketFits.patternLoad off a b c d e) (by decide) rfl fun at_ => by
      simp only [commandOf, at_, List.getD_cons_zero, List.getD_cons_succ]
  | curveLoad off n points => exact curveLoad_readsBack off n points
  | gpiConfig off a b c d e =>
    exact .of_bytes (ns := [a, b, c, d, e]) rfl (Laws.PacketFits.gpiConfig off a b c d e) (by decide) rfl fun at_ => by
      simp only [commandOf, at_, List.getD_cons_zero, List.getD_cons_succ]
  | tallyConfig off a b =>
    exact .of_bytes (ns := [a, b]) rfl (Laws.PacketFits.tallyConfig off a b) (by decide) rfl fun at_ => by
      simp only [commandOf, at_, List.getD_cons_zero, List.getD_cons_succ]
  | _ => exact .of_event rfl

/-- Settles O20: the words give the payload, and the payload the command. -/
theorem packetReadsBack : Obligations.PacketReadsBack := by
  intro i off kind payload after fits packet
  obtain ⟨known, short, found⟩ := readsBack i fits off kind payload packet
  rw [readLine_packetLine off after known short, found]

end Sys2Proof.Machine
end

section
/-! ## The arm validation as a list of tests (O43)

Each step of the arm validation answers the first of its tests that fails, and a value where none does; the steps in a row
answer the first of all their tests (R125 to R129). -/

namespace Sys2Proof.Machine

open Sys2Proof

/-! ### Tests in order -/

/-- The refusal of the first test that fails; a test holds where it fails. -/
def firstFault (tests : List (Bool × Answer)) : Option Answer := (tests.find? (fun y => y.1)).map (fun y => y.2)

theorem firstFault_nil : firstFault [] = none := rfl

theorem firstFault_cons (b : Bool) (a : Answer) (tests : List (Bool × Answer)) :
    firstFault ((b, a) :: tests) = if b = true then some a else firstFault tests := by
  cases b <;> rfl

theorem firstFault_decide (test : Prop) [Decidable test] (a : Answer) (tests : List (Bool × Answer)) :
    firstFault ((decide test, a) :: tests) = if test then some a else firstFault tests := by
  by_cases h : test <;> simp [firstFault, h]

theorem firstFault_of_find {tests : List (Bool × Answer)} {x : Bool × Answer} (h : tests.find? (fun y => y.1) = some x) :
    firstFault tests = some x.2 := by
  rw [firstFault, h]
  rfl

theorem firstFault_of_find_none {tests : List (Bool × Answer)} (h : tests.find? (fun y => y.1) = none) :
    firstFault tests = none := by
  rw [firstFault, h]
  rfl

theorem firstFault_append (tests more : List (Bool × Answer)) :
    firstFault (tests ++ more) = (firstFault tests).or (firstFault more) := by
  rw [firstFault, List.find?_append, Option.map_or]
  rfl

/-- The computation answers the first test that fails, and the value where none does. -/
def Decides {α : Type} (tests : List (Bool × Answer)) (x : Except Answer α) (v : α) : Prop :=
  x = (firstFault tests).elim (.ok v) .error

namespace Decides

variable {α β : Type} {v : α} {w : β}

theorem pure (v : α) : Decides [] (Pure.pure v) v := rfl

/-- One computation after another answers the tests of the first, then those of the second. -/
theorem bind {tests more : List (Bool × Answer)} {x : Except Answer α} {f : α → Except Answer β} (first : Decides tests x v)
    (second : Decides more (f v) w) : Decides (tests ++ more) (x >>= f) w := by
  rw [Decides, firstFault_append]
  cases fault : firstFault tests with
  | some a =>
    rw [Decides, fault] at first
    rw [first]
    rfl
  | none =>
    rw [Decides, fault] at first
    rw [first]
    exact second

theorem of_eq {tests more : List (Bool × Answer)} {x : Except Answer α} (h : Decides tests x v) (same : tests = more) :
    Decides more x v := same ▸ h

end Decides

/-! ### In-points (R126) -/

/-- The record in-point as a frame count: of its label, or of the mark on top of the stack. -/
def EventRecord.inFrames (e : EventRecord) (c : Counting) (marks : List Mark) : Nat :=
  match e.recordIn with
  | some l => labelCount c l.label
  | none => (marks.head?.map (fun m => m.position / 2)).getD 0

theorem resolveLabel_decides (c : Counting) (operand : Nat) (l : StoredLabel) :
    Decides [(!labelInRange c l.label, .badValue operand)] (resolveLabel c operand l)
      (labelCount c l.label, (normalise c l.label).2) := by
  unfold resolveLabel
  cases range : labelInRange c l.label <;> rfl

theorem resolveOptional_decides (c : Counting) (operand : Nat) (l : Option StoredLabel) :
    Decides [(l.any (fun l => !labelInRange c l.label), .badValue operand)] (resolveOptional c operand l)
      (l.map (fun l => labelCount c l.label), l.any (fun l => (normalise c l.label).2)) := by
  cases l with
  | none => rfl
  | some l =>
    rw [resolveOptional, resolveLabel_decides]
    cases range : labelInRange c l.label <;> simp [Decides, firstFault_cons, firstFault_nil, range]

theorem resolveRecordIn_decides (c : Counting) (marks : List Mark) (e : EventRecord) :
    Decides [(e.recordIn.any (fun l => !labelInRange c l.label), .badValue 3), (e.recordIn.isNone && marks.isEmpty, .noMark)]
      (resolveRecordIn c marks e).1
      (e.inFrames c marks, if e.recordIn = none then marks.head?.map (fun m => (m.deck, m.origin)) else none
       , e.recordIn.any (fun l => (normalise c l.label).2)) := by
  unfold resolveRecordIn EventRecord.inFrames
  cases e.recordIn with
  | some l =>
    dsimp only
    rw [resolveLabel_decides]
    cases range : labelInRange c l.label <;> simp [Decides, firstFault_cons, firstFault_nil, range]
  | none => cases marks <;> rfl

/-- The in-point label of a fill deck of its own. -/
theorem EventRecord.ownFill_fillIn (e : EventRecord) :
    e.ownFill.map EventKey.fillIn = e.key.bind (fun k => if e.hasBackground k.fillDeck then none else some k.fillIn) := by
  unfold EventRecord.ownFill
  cases e.key with
  | none => rfl
  | some k =>
    dsimp only [Option.bind]
    split <;> rfl

/-! ### Cue points and the out-point (R127) -/

/-- The refusal of a cue point that borrows. -/
def Answer.cueBorrows (operand : Nat) : Answer := { result := .badValue, operand := operand, borrow := true }

/-- The refusal of an out-point that wraps. -/
def Answer.outWraps : Answer := { result := .badValue, operand := 4, wrap := true }

theorem cueOf_decides (c : Counting) (operand preroll n : Nat) :
    Decides [(decide (n < preroll), .cueBorrows operand)] (cueOf c operand preroll n) (subFrames c n preroll).1 := by
  unfold cueOf subFrames
  cases borrow : decide (n < preroll) <;> rfl

theorem optionalCue_decides (c : Counting) (operand preroll : Nat) (n : Option Nat) :
    Decides [(n.any (fun n => decide (n < preroll)), .cueBorrows operand)] (optionalCue c operand preroll n)
      (n.map (fun n => (subFrames c n preroll).1)) := by
  cases n with
  | none => rfl
  | some n =>
    rw [optionalCue, cueOf_decides]
    cases borrow : decide (n < preroll) <;> simp [Decides, firstFault_cons, firstFault_nil, borrow]

theorem outPointOf_decides (c : Counting) (recordIn : Nat) (length : Option Nat) :
    Decides [(length.any (fun l => decide (c.dayFrames ≤ recordIn + l)), .outWraps)] (outPointOf c recordIn length)
      (length.map (fun l => (addFrames c recordIn l).1)) := by
  cases length with
  | none => rfl
  | some l =>
    unfold outPointOf addFrames
    cases wrap : decide (c.dayFrames ≤ recordIn + l) <;> simp [Decides, firstFault_cons, firstFault_nil, wrap, Answer.outWraps]

/-! ### Timing and content, pattern and curve (R128, R129) -/

/-- The tests of timing and content and of the tables. -/
def EventRecord.timingTests (e : EventRecord) : List (Bool × Answer) :=
  [(e.transition != .cut && e.source2.isNone, .badValue 5), (e.length.any (fun l => decide (l ≤ e.start)), .badValue 6)
   , (e.key.any (fun k => decide (k.offOffset ≤ k.onOffset)), .badValue 22)
   , (e.key.any (fun k => e.length.any (fun l => decide (l < k.offOffset))), .badValue 23)
   , (e.kind == .insert && e.tracks == 0, .badValue 15), (decide (15 < e.pattern), .badValue 8)
   , (decide (3 < e.curve), .badValue 9)]

theorem timingFault_eq (e : EventRecord) : timingFault e = firstFault e.timingTests := by
  simp only [timingFault, EventRecord.timingTests, ↓firstFault_decide, firstFault_cons, firstFault_nil,
    notBelowLength] <;> rfl

/-! ### The seven steps (R125 to R129) -/

/-- The tests of recorder, players and key input (steps 1 to 3). -/
def Part.armDeckTests (p : Part) (e : EventRecord) : List (Bool × Answer) :=
  [(p.recorder.isNone, .state), (!p.canPlay e.source1.deck, .state), (e.source2.any (fun x => !p.canPlay x.deck), .state)
   , (e.key.any (fun k => !p.canPlay k.fillDeck), .state), (e.source2.any (fun x => x.deck == e.source1.deck), .badValue 26)
   , (e.key.any (fun k => (p.holder k.keyInput).any (fun d => (p.deck d).role == .recorder)), .state)]

/-- The tests of the values (steps 4 to 7). -/
def EventRecord.valueTests (e : EventRecord) (c : Counting) (marks : List Mark) : List (Bool × Answer) :=
  let bad (l : StoredLabel) : Bool := !labelInRange c l.label
  let early (n : Nat) : Bool := n < e.preroll
  let count (l : StoredLabel) : Nat := labelCount c l.label
  let fill : Option StoredLabel := e.ownFill.map EventKey.fillIn
  [(e.recordIn.any bad, .badValue 3), (e.recordIn.isNone && marks.isEmpty, .noMark), (bad e.source1.play, .badValue 25)
   , (e.source2.any (fun x => bad x.play), .badValue 27), (fill.any bad, .badValue 17)
   , (early (e.inFrames c marks), .cueBorrows 3), (early (count e.source1.play), .cueBorrows 25)
   , (e.source2.any (fun x => early (count x.play)), .cueBorrows 27), (fill.any (fun l => early (count l)), .cueBorrows 17)
   , (e.length.any (fun l => decide (c.dayFrames ≤ e.inFrames c marks + l)), .outWraps)] ++ e.timingTests

/-- The marks that steps 4 to 7 leave: the top one is popped for MARK. -/
def EventRecord.marksLeft (e : EventRecord) (marks : List Mark) : List Mark :=
  if e.recordIn = none then marks.drop 1 else marks

/-- The in-points of an event whose tests of step 4 pass. -/
def EventRecord.inPoints (e : EventRecord) (c : Counting) (marks : List Mark) (normalised : Bool) : InPoints :=
  { recordIn := e.inFrames c marks
    mark := if e.recordIn = none then marks.head?.map (fun m => (m.deck, m.origin)) else none
    play1 := labelCount c e.source1.play.label
    play2 := (e.source2.map EventSource.play).map (fun l => labelCount c l.label)
    fill := (e.ownFill.map EventKey.fillIn).map (fun l => labelCount c l.label)
    normalised := normalised }

/-- Step 4 answers the first of its tests that fails. -/
theorem inPoints_decides (c : Counting) (marks : List Mark) (e : EventRecord) :
    ∃ normalised, Decides
      [(e.recordIn.any (fun l => !labelInRange c l.label), .badValue 3), (e.recordIn.isNone && marks.isEmpty, .noMark)
       , (!labelInRange c e.source1.play.label, .badValue 25)
       , ((e.source2.map EventSource.play).any (fun l => !labelInRange c l.label), .badValue 27)
       , ((e.ownFill.map EventKey.fillIn).any (fun l => !labelInRange c l.label), .badValue 17)]
      ((resolveRecordIn c marks e).1 >>= resolvePlays c e) (e.inPoints c marks normalised) :=
  ⟨_, (resolveRecordIn_decides c marks e).bind ((resolveLabel_decides c 25 _).bind ((resolveOptional_decides c 27 _).bind
    ((resolveOptional_decides c 17 _).bind (.pure _))))⟩

/-- Steps 5 to 7 answer the first of their tests that fails. -/
theorem armResultsOf_decides (c : Counting) (recorder : DeckNo) (e : EventRecord) (i : InPoints) :
    ∃ r, Decides
      ([(decide (i.recordIn < e.preroll), .cueBorrows 3), (decide (i.play1 < e.preroll), .cueBorrows 25)
        , (i.play2.any (fun n => decide (n < e.preroll)), .cueBorrows 27)
        , (i.fill.any (fun n => decide (n < e.preroll)), .cueBorrows 17)
        , (e.length.any (fun l => decide (c.dayFrames ≤ i.recordIn + l)), .outWraps)] ++ e.timingTests)
      (armResultsOf c recorder e i) r := by
  have timed (r : ArmResults) : Decides e.timingTests
      (match timingFault e with
       | some a => throw a
       | none => return r) r := by
    rw [Decides, ← timingFault_eq]
    cases timingFault e <;> rfl
  exact ⟨_, (cueOf_decides c 3 _ _).bind ((cueOf_decides c 25 _ _).bind ((optionalCue_decides c 27 _ _).bind
    ((optionalCue_decides c 17 _ _).bind ((outPointOf_decides c _ _).bind (timed _)))))⟩

theorem armFromStep4_outcome (c : Counting) (marks : List Mark) (recorder : DeckNo) (e : EventRecord) :
    (armFromStep4 c marks recorder e).outcome = ((resolveRecordIn c marks e).1 >>= resolvePlays c e) >>= fun i =>
      armResultsOf c recorder e i >>= fun r => Pure.pure (r, i.normalised) := by
  unfold armFromStep4
  split
  · next refused =>
    rw [refused]
    rfl
  · next found =>
    rw [found]
    rfl

/-- Steps 4 to 7 answer the first of their tests that fails. -/
theorem armFromStep4_decides (c : Counting) (marks : List Mark) (recorder : DeckNo) (e : EventRecord) :
    ∃ v, Decides (e.valueTests c marks) (armFromStep4 c marks recorder e).outcome v := by
  obtain ⟨normalised, points⟩ := inPoints_decides c marks e
  obtain ⟨r, results⟩ := armResultsOf_decides c recorder e (e.inPoints c marks normalised)
  rw [armFromStep4_outcome]
  refine ⟨(r, normalised), (points.bind (results.bind (.pure (r, normalised)))).of_eq ?_⟩
  simp only [EventRecord.valueTests, EventRecord.inPoints, List.cons_append, List.nil_append, List.append_nil,
    Option.any_map] <;> rfl

/-- Steps 1 to 3 answer the first of their tests that fails. -/
theorem Part.firstFault_armDeckTests (p : Part) (e : EventRecord) : firstFault (p.armDeckTests e) =
    if p.recorder.isNone = true then some .state else (p.playersFault e).or (p.keyInputFault e) := by
  have players : p.playersFault e = firstFault [(!p.canPlay e.source1.deck, .state)
      , (e.source2.any (fun x => !p.canPlay x.deck), .state), (e.key.any (fun k => !p.canPlay k.fillDeck), .state)
      , (e.source2.any (fun x => x.deck == e.source1.deck), .badValue 26)] := by
    simp only [playersFault, firstFault_cons, firstFault_nil]
  have keyInput : p.keyInputFault e = firstFault
      [(e.key.any (fun k => (p.holder k.keyInput).any (fun d => (p.deck d).role == .recorder)), .state)] := by
    unfold keyInputFault
    cases e.key with
    | none => rfl
    | some k =>
      cases holder : p.holder k.keyInput with
      | none => simp [holder, firstFault_cons, firstFault_nil]
      | some d => simp [holder, firstFault_cons, firstFault_nil]
  rw [players, keyInput, ← firstFault_append, ← firstFault_cons]
  rfl

section
variable {p : Part} {e : EventRecord}

/-- A deck that fails steps 1 to 3 is refused, and no mark is popped. -/
theorem Part.validateArm_of_deckFault {a : Answer} (h : firstFault (p.armDeckTests e) = some a) :
    p.validateArm e = { marks := p.tcu.marks, outcome := .error a } := by
  rw [p.firstFault_armDeckTests] at h
  unfold validateArm
  cases recorder : p.recorder with
  | none =>
    rw [recorder] at h
    cases h
    rfl
  | some r =>
    rw [recorder] at h
    cases players : p.playersFault e with
    | some b =>
      rw [players] at h
      cases h
      rfl
    | none =>
      rw [players] at h
      replace h : p.keyInputFault e = some a := h
      dsimp only
      rw [h]

/-- Where the decks pass, the values are judged. -/
theorem Part.validateArm_of_decks (h : firstFault (p.armDeckTests e) = none) :
    ∃ r, p.validateArm e = armFromStep4 p.counting p.tcu.marks r e := by
  rw [p.firstFault_armDeckTests] at h
  unfold validateArm
  cases recorder : p.recorder with
  | none =>
    rw [recorder] at h
    cases h
  | some r =>
    rw [recorder] at h
    obtain ⟨players, keyInput⟩ := Option.or_eq_none_iff.mp h
    rw [players, keyInput]
    exact ⟨r, rfl⟩

/-- Where the decks pass, the first value that fails decides, and the arm is made where none does. -/
theorem Part.validateArm_of_values (h : firstFault (p.armDeckTests e) = none) :
    (p.validateArm e).marks = e.marksLeft p.tcu.marks
    ∧ ∃ v, Decides (e.valueTests p.counting p.tcu.marks) (p.validateArm e).outcome v := by
  obtain ⟨r, judged⟩ := Part.validateArm_of_decks h
  rw [judged]
  refine ⟨?_, armFromStep4_decides _ _ r e⟩
  rw [armFromStep4_marks, EventRecord.marksLeft, List.drop_one]

theorem Part.validateArm_of_valueFault {a : Answer} (h : firstFault (p.armDeckTests e) = none)
    (fault : firstFault (e.valueTests p.counting p.tcu.marks) = some a) :
    p.validateArm e = { marks := e.marksLeft p.tcu.marks, outcome := .error a } := by
  obtain ⟨marks, v, outcome⟩ := Part.validateArm_of_values h
  rw [Decides, fault] at outcome
  rw [← marks, show Except.error a = (p.validateArm e).outcome from outcome.symm]

theorem Part.validateArm_of_pass (h : firstFault (p.armDeckTests e) = none)
    (pass : firstFault (e.valueTests p.counting p.tcu.marks) = none) :
    ∃ v, p.validateArm e = { marks := e.marksLeft p.tcu.marks, outcome := .ok v } := by
  obtain ⟨marks, v, outcome⟩ := Part.validateArm_of_values h
  rw [Decides, pass] at outcome
  exact ⟨v, by rw [← marks, show Except.ok v = (p.validateArm e).outcome from outcome.symm]⟩

/-- An arm that is made has judged the values, so a mark asked for is popped. -/
theorem Part.marks_of_validateArm_ok {marks : List Mark} {v : ArmResults × Bool}
    (h : p.validateArm e = { marks := marks, outcome := .ok v }) : marks = e.marksLeft p.tcu.marks := by
  cases decks : firstFault (p.armDeckTests e) with
  | some a =>
    rw [Part.validateArm_of_deckFault decks] at h
    cases h
  | none =>
    obtain ⟨left, -⟩ := Part.validateArm_of_values decks
    rw [h] at left
    exact left

/-- The stack is shorter than before where a mark was popped. -/
theorem EventRecord.marksLeft_length_lt (e : EventRecord) (marks : List Mark) :
    decide ((e.marksLeft marks).length < marks.length) = (e.recordIn.isNone && !marks.isEmpty) := by
  unfold EventRecord.marksLeft
  cases e.recordIn with
  | some l => simp
  | none => cases marks <;> simp

/-! ### EVENT_ARM (R124) -/

theorem Part.armEvent_of_error {n : SlotNo} {marks : List Mark} {a : Answer}
    (h : p.validateArm e = { marks := marks, outcome := .error a }) :
    p.armEvent n e = (p.modTcu (fun t => { t with marks := marks })
      , { a with notRestored := decide (marks.length < p.tcu.marks.length) }) := by
  rw [armEvent, h]

theorem Part.armEvent_of_ok {n : SlotNo} {marks : List Mark} {r : ArmResults} {normalised : Bool}
    (h : p.validateArm e = { marks := marks, outcome := .ok (r, normalised) }) :
    p.armEvent n e = ((p.modTcu (fun t => { t with marks := marks })).modSlot n (·.armedWith r)
      , { result := .accepted, normalised := normalised, payload := armBytes p.counting r }) := by
  rw [armEvent, h]
  rfl

/-- The arm of a slot that holds an event and is not armed judges the event. -/
theorem Part.armSlot_of_event {n : SlotNo} (event : (p.slot n).event = some e)
    (held : (p.slot n).state ∈ [SlotState.loaded, .done, .failed, .aborted]) : p.armSlot n = p.armEvent n e := by
  unfold armSlot
  rw [event]
  cases state : (p.slot n).state with
  | loaded | done | failed | aborted => rfl
  | empty | armed | active => simp [state] at held

theorem Part.armSlot_of_state {n : SlotNo} (h : (p.slot n).state = .empty ∨ (p.slot n).state = .armed) :
    p.armSlot n = (p, .state) := by
  unfold armSlot
  obtain empty | armed := h
  · rw [empty]
  · rw [armed]

theorem Part.armSlot_of_active {n : SlotNo} (h : (p.slot n).state = .active) : p.armSlot n = (p, .busy) := by
  unfold armSlot
  rw [h]

end

theorem exec_eventArm (off : Nat) (n : SlotNo) (s : State) :
    exec (.eventArm off n.val) s = dispatched s 0x53 off (s.part.armSlot n) := by
  show execEventArm off n.val s = _
  rw [execEventArm, slotOf_slot]

/-! ### The arm results in bytes (R129) -/

theorem bytes_append {bs cs : List Byte} {ns ms : List Nat} (left : bs = ns.map byteOf) (right : cs = ms.map byteOf) :
    bs ++ cs = (ns ++ ms).map byteOf := by
  rw [List.map_append, left, right]

theorem bytes_cons {bs : List Byte} {ns : List Nat} (v : Nat) (rest : bs = ns.map byteOf) :
    byteOf v :: bs = (v :: ns).map byteOf := by
  rw [List.map_cons, rest]

/-- The numbers of a frame count as a label, which names field 1. -/
def frameNumbers (c : Counting) (n : Nat) : List Nat :=
  [(countLabel c n .one).hh, (countLabel c n .one).mm, (countLabel c n .one).ss, (countLabel c n .one).ff
   , 8 * if c.drop then 1 else 0]

theorem frameBytes_eq (c : Counting) (n : Nat) : frameBytes c n = (frameNumbers c n).map byteOf := by
  have field : (countLabel c n .one).field = .one := by
    unfold countLabel
    split <;> rfl
  rw [frameBytes, formedLabel, labelBytes, field, frameNumbers]
  cases c.drop <;> rfl

/-- The numbers of an armed player. -/
def armedDeckNumbers (c : Counting) (x : ArmedDeck) : List Nat :=
  x.deck.val :: (frameNumbers c x.inPoint ++ frameNumbers c x.cue)

theorem armedDeckBytes_eq (c : Counting) (x : ArmedDeck) : armedDeckBytes c x = (armedDeckNumbers c x).map byteOf :=
  bytes_cons _ (bytes_append (frameBytes_eq c _) (frameBytes_eq c _))

/-- The numbers of the mark that gave the record in-point. -/
def markNumbers : Option (DeckNo × Origin) → List Nat
  | some (d, .g x) => [1, d.val, x.val]
  | some (d, .host) => [1, d.val, 4]
  | none => [0, 0, 0]

theorem markNumbers_eq (m : Option (DeckNo × Origin)) :
    optionalPart (zeros 2) (m.map (fun m => [byteOf m.1.val, byteOf m.2.code])) = (markNumbers m).map byteOf := by
  rcases m with - | ⟨d, - | -⟩ <;> rfl

/-- The numbers of the out-point. -/
def outPointNumbers (c : Counting) : Option Nat → List Nat
  | some n => 0 :: frameNumbers c n
  | none => [1, 0, 0, 0, 0, 0]

/-- The numbers of the source list. -/
def armedSourceNumbers (c : Counting) (first : ArmedDeck) : Option ArmedDeck → List Nat
  | some x => 2 :: (armedDeckNumbers c first ++ armedDeckNumbers c x)
  | none => 1 :: armedDeckNumbers c first

/-- The numbers of the armed fill. -/
def armedFillNumbers (c : Counting) : Option ArmedDeck → List Nat
  | some x => 1 :: armedDeckNumbers c x
  | none => List.replicate 12 0

theorem armedFillNumbers_eq (c : Counting) (x : Option ArmedDeck) :
    optionalPart (zeros 11) (x.map (armedDeckBytes c)) = (armedFillNumbers c x).map byteOf := by
  cases x with
  | none => rfl
  | some x => exact bytes_cons 1 (armedDeckBytes_eq c x)

theorem durationNumbers_eq (n : Nat) (clamped : Bool) :
    numBytes 2 n ++ [flagByte clamped] = [n / 256, n, if clamped then 1 else 0].map byteOf := by
  rw [numBytes_two]
  cases clamped <;> rfl

/-- The arm results as numbers, in the order of R129. -/
def armNumbers (c : Counting) (r : ArmResults) : List Nat :=
  r.recorder.val :: frameNumbers c r.recordIn ++ markNumbers r.mark ++ outPointNumbers c r.outPoint
  ++ frameNumbers c r.recorderCue ++ armedSourceNumbers c r.source1 r.source2 ++ armedFillNumbers c r.fill
  ++ [r.duration / 256, r.duration, if r.durationClamped then 1 else 0]

theorem armBytes_eq (c : Counting) (r : ArmResults) : armBytes c r = (armNumbers c r).map byteOf := by
  rw [armBytes, List.append_assoc _ (numBytes 2 _)]
  refine bytes_append (bytes_append (bytes_append (bytes_append (bytes_append (bytes_append
    (bytes_cons _ (frameBytes_eq c _)) (markNumbers_eq _)) ?outPoint) (frameBytes_eq c _)) ?sources)
    (armedFillNumbers_eq c _)) (durationNumbers_eq _ _)
  case outPoint =>
    cases r.outPoint with
    | none => rfl
    | some n => exact bytes_cons 0 (frameBytes_eq c n)
  case sources =>
    cases r.source2 with
    | none => exact bytes_cons 1 (armedDeckBytes_eq c _)
    | some x => exact bytes_cons 2 (bytes_append (armedDeckBytes_eq c _) (armedDeckBytes_eq c x))

end Sys2Proof.Machine
end

section
namespace Sys2Proof.Machine

open Sys2Proof

/-- Settles O43: the first of the tests that fails decides; where none does, the arm is made and returned. -/
theorem eventArmed : Obligations.EventArmed := by
  intro s off n
  refine ⟨fun e event held => ?_, fun h => ?_, fun h => ?_⟩
  · intro c stack left spent popped plays bad early count recordIn fill borrow wrap decks values
    have judged : exec (.eventArm off n.val) s = dispatched s 0x53 off (s.part.armEvent n e) := by
      rw [exec_eventArm, Part.armSlot_of_event event held]
    have decks_eq : s.part.armDeckTests e = decks := rfl
    have values_eq : e.valueTests c stack = values := by
      rw [EventRecord.valueTests, EventRecord.ownFill_fillIn]
      rfl
    refine ⟨fun x found => ?_, fun pass x found => ?_, fun pass pass' => ?_, ?_⟩
    · have kept : x.2.notRestored = false := by
        have one_of : x ∈ decks := List.mem_of_find?_eq_some found
        simp only [decks, List.mem_cons, List.not_mem_nil, or_false] at one_of
        rcases one_of with rfl | rfl | rfl | rfl | rfl | rfl <;> rfl
      have same : { x.2 with notRestored := decide (stack.length < stack.length) } = x.2 := by
        rw [decide_eq_false (Nat.lt_irrefl _), ← kept]
      rw [judged, Part.armEvent_of_error (Part.validateArm_of_deckFault (decks_eq ▸ firstFault_of_find found))]
      exact congrArg (fun a => Host.Outcome.next { s with part := s.part.reply 0x53 off a }) same
    · have refused := Part.validateArm_of_valueFault (decks_eq ▸ firstFault_of_find_none pass) (values_eq ▸ firstFault_of_find found)
      rw [judged, Part.armEvent_of_error refused, e.marksLeft_length_lt]
      rfl
    · obtain ⟨⟨r, normalised⟩, made⟩ :=
        Part.validateArm_of_pass (decks_eq ▸ firstFault_of_find_none pass) (values_eq ▸ firstFault_of_find_none pass')
      exact ⟨r, normalised, made⟩
    · intro marks r normalised made flag label player items armed answer
      obtain rfl : marks = left := Part.marks_of_validateArm_ok made
      refine ⟨armBytes_eq c r, rfl, ?_⟩
      rw [judged, Part.armEvent_of_ok made]
      rfl
  · rw [exec_eventArm, Part.armSlot_of_state h]
    rfl
  · rw [exec_eventArm, Part.armSlot_of_active h]
    rfl

end Sys2Proof.Machine
end

section
/-! ## Laws: a measured position

What the position measured signal leaves alone, and what a VITC measurement leaves of the record of its deck (R63 to R68,
R108). -/

namespace Sys2Proof.Machine

open Sys2Proof

/-! ### The tapes under a chase computation -/

@[simp] theorem Part.chaseLost_tapes (p : Part) (r : Reason) : (p.chaseLost r).tapes = p.tapes := by
  unfold Part.chaseLost
  split <;> simp

@[simp] theorem Part.syncLost_tapes (p : Part) : p.syncLost.tapes = p.tapes := by
  unfold Part.syncLost
  split <;> simp

@[simp] theorem Part.loseChase_tapes (p : Part) (d : DeckNo) (e : Int) (r : Reason) : (p.loseChase d e r).tapes = p.tapes :=
  (Part.chaseLost_tapes _ r).trans (p.modDeck_tapes d _ fun _ => rfl)

@[simp] theorem Part.computeWith_tapes (p : Part) (d r : DeckNo) : (p.computeWith d r).tapes = p.tapes := by
  unfold Part.computeWith
  extract_lets o e v q
  have judged : q.tapes = p.tapes := (Part.wantSpeed_tapes _ d v).trans (p.modDeck_tapes d _ fun _ => rfl)
  split
  · exact p.loseChase_tapes d _ _
  · split
    · exact q.syncLost_tapes.trans judged
    · exact judged

@[simp] theorem Part.compute_tapes (p : Part) (d : DeckNo) : (p.compute d).tapes = p.tapes := by
  unfold Part.compute
  split
  · rfl
  · split <;> simp

@[simp] theorem Part.positionMeasured_tapes (p : Part) (d : DeckNo) : (p.positionMeasured d).tapes = p.tapes := by
  unfold Part.positionMeasured
  split
  · split <;> simp
  · rfl

/-! ### Its notices -/

section
variable {m : Notice} (failed : m ≠ .eventFailed) (ended : m ≠ .listEnd)
include failed ended

/-- A failure sets no notice but EVENT_FAILED and LIST_END. -/
theorem Part.failEvent_noticeSet_other (p : Part) (r : Reason) : (p.failEvent r).noticeSet m = p.noticeSet m := by
  simp [Part.failEvent_noticeSet, failed, ended]

theorem Part.chaseLost_noticeSet (p : Part) (r : Reason) : (p.chaseLost r).noticeSet m = p.noticeSet m := by
  unfold Part.chaseLost
  split
  · exact p.failEvent_noticeSet_other failed ended r
  · rfl

theorem Part.syncLost_noticeSet (p : Part) : p.syncLost.noticeSet m = p.noticeSet m := by
  unfold Part.syncLost
  split
  · exact p.failEvent_noticeSet_other failed ended _
  · rfl

theorem Part.computeWith_noticeSet (p : Part) (d r : DeckNo) : (p.computeWith d r).noticeSet m = p.noticeSet m := by
  unfold Part.computeWith
  extract_lets o e v q
  split
  · exact Part.chaseLost_noticeSet failed ended _ _
  · split
    · exact q.syncLost_noticeSet failed ended
    · rfl

/-- The position measured signal sets no notice but those of a failure (R112, R115, R147). -/
theorem Part.positionMeasured_noticeSet (p : Part) (d : DeckNo) : (p.positionMeasured d).noticeSet m = p.noticeSet m := by
  unfold Part.positionMeasured Part.compute
  split
  · split
    · rfl
    · split
      · rfl
      · split
        · exact p.computeWith_noticeSet failed ended _ _
        · rfl
  · rfl

theorem Part.vitcMeasurement_noticeSet (p : Part) (d : DeckNo) (x : Reading) :
    (p.vitcMeasurement d x).noticeSet m = p.noticeSet m := by
  unfold Part.vitcMeasurement Part.useVitc
  dsimp only
  split
  · split
    · exact Part.positionMeasured_noticeSet failed ended _ _
    · rfl
  · rfl

end

/-! ### A VITC measurement (R64, R65, R67, R68) -/

/-- A position record after a usable VITC measurement of this position, this many fields old. -/
def PosRec.vitcMeasured (r : PosRec) (day position elapsed : Nat) : PosRec :=
  if r.preference = .vitcFirst ∨ 2 < r.deckAge then
    { r with vitcAge := 0 }.replaced day position elapsed r.motion .vitc
  else { r with vitcAge := 0 }

/-- At the tapes a usable measurement writes the record of its deck and nothing else. -/
theorem Part.useVitc_tapes (p : Part) (d : DeckNo) (position field : Nat) :
    (p.useVitc d position field).tapes
      = (p.modDeck d fun k => { k with
          position := (p.deck d).position.vitcMeasured p.counting.day position (p.rtu.elapsedFields field) }).tapes := by
  unfold Part.useVitc PosRec.vitcMeasured
  by_cases used : (p.deck d).position.preference = .vitcFirst ∨ 2 < (p.deck d).position.deckAge
  · simp only [used, if_true]
    exact Part.positionMeasured_tapes _ d
  · simp only [used, if_false]

/-- A measurement that the TCU takes: the counting is settled and the label has a count (R64). -/
def Part.takesVitc (p : Part) (x : Reading) : Bool := p.tcu.settled && labelInRange p.counting x.label

/-- A measurement that the TCU discards does nothing (R64). -/
theorem Part.vitcMeasurement_discarded (p : Part) (d : DeckNo) (x : Reading) (h : p.takesVitc x = false) :
    p.vitcMeasurement d x = p := if_neg (by simpa [Part.takesVitc] using h)

/-- One that it takes is used (R64, R65). -/
theorem Part.vitcMeasurement_taken (p : Part) (d : DeckNo) (x : Reading) (h : p.takesVitc x = true) :
    p.vitcMeasurement d x = p.useVitc d (labelPosition p.counting x.label) x.field := if_pos h

/-- The record of the deck of a measurement that is taken. -/
theorem Part.vitcMeasurement_position (p : Part) (d : DeckNo) (x : Reading) (h : p.takesVitc x = true) :
    ((p.vitcMeasurement d x).deck d).position
      = (p.deck d).position.vitcMeasured p.counting.day (labelPosition p.counting x.label) (p.rtu.elapsedFields x.field) := by
  rw [p.vitcMeasurement_taken d x h, Deck.position_of_undemanded (Part.undemanded_of_tapes (p.useVitc_tapes d _ _) d),
    Part.modDeck_deck_self]

/-- The records of the other decks stay. -/
theorem Part.vitcMeasurement_position_ne (p : Part) {d e : DeckNo} (x : Reading) (h : e ≠ d) :
    ((p.vitcMeasurement d x).deck e).position = (p.deck e).position := by
  cases taken : p.takesVitc x with
  | false => rw [p.vitcMeasurement_discarded d x taken]
  | true =>
    rw [p.vitcMeasurement_taken d x taken,
      Deck.position_of_undemanded (Part.undemanded_of_tapes (p.useVitc_tapes d _ _) e), p.modDeck_deck_ne _ h]

/-- A measured record depends on the record before, the counting and the RTU alone. -/
theorem Part.vitcMeasurement_position_congr {p q : Part} {d : DeckNo} (x : Reading) (rtu : q.rtu = p.rtu)
    (tcu : q.tcu = p.tcu) (deck : q.deck d = p.deck d) :
    ((q.vitcMeasurement d x).deck d).position = ((p.vitcMeasurement d x).deck d).position := by
  have counting : q.counting = p.counting := by rw [Part.counting, rtu, tcu, Part.counting]
  have takes : q.takesVitc x = p.takesVitc x := by rw [Part.takesVitc, tcu, counting, Part.takesVitc]
  cases taken : p.takesVitc x with
  | false => rw [p.vitcMeasurement_discarded d x taken, q.vitcMeasurement_discarded d x (takes.trans taken), deck]
  | true =>
    rw [p.vitcMeasurement_position d x taken, q.vitcMeasurement_position d x (takes.trans taken), counting, rtu, deck]

end Sys2Proof.Machine
end

section
/-! ## The timing reference of an input and the judgement of its fields (O22, O23, O24) -/

namespace Sys2Proof.Machine

open Sys2Proof

/-! ### The nearest field start (R43) -/

/-- The field start `a` is not farther than `b`, and where both are equally near it is not the earlier (R43). -/
def NearStart.Beats (a b : NearStart) : Prop :=
  a.time.natAbs ≤ b.time.natAbs ∧ (b.time.natAbs = a.time.natAbs → b.time ≤ a.time)

/-- Of two field starts in time order the nearer one beats both. -/
theorem nearer_beats {a b : NearStart} (h : a.time ≤ b.time) : (nearer a b).Beats a ∧ (nearer a b).Beats b := by
  unfold nearer NearStart.Beats
  split <;> omega

theorem NearStart.Beats.trans {a b c : NearStart} (h : a.Beats b) (k : b.Beats c) : a.Beats c := by
  unfold NearStart.Beats at *
  omega

theorem NearStart.Beats.refl (a : NearStart) : a.Beats a := ⟨le_rfl, fun _ => le_rfl⟩

theorem nearer_eq_or (a b : NearStart) : nearer a b = a ∨ nearer a b = b := by
  unfold nearer
  split <;> simp

/-- Of field starts in time order the one chosen in turn is one of them and beats every one. -/
theorem foldl_nearer_beats {a : NearStart} {l : List NearStart} (sorted : (a :: l).Pairwise (·.time ≤ ·.time)) :
    l.foldl nearer a ∈ a :: l ∧ ∀ m ∈ a :: l, (l.foldl nearer a).Beats m := by
  induction l generalizing a with
  | nil => simp [NearStart.Beats.refl]
  | cons b l ih =>
    obtain ⟨first, rest⟩ := List.pairwise_cons.1 sorted
    obtain ⟨second, tail⟩ := List.pairwise_cons.1 rest
    have sorted' : (nearer a b :: l).Pairwise (·.time ≤ ·.time) := by
      refine List.pairwise_cons.2 ⟨fun m one_of => ?_, tail⟩
      rcases nearer_eq_or a b with same | same <;> rw [same]
      · exact first m (List.mem_cons_of_mem _ one_of)
      · exact second m one_of
    obtain ⟨chosen, beats⟩ := ih sorted'
    obtain ⟨beats_a, beats_b⟩ := nearer_beats (first b List.mem_cons_self)
    have beats_nearer := beats _ List.mem_cons_self
    have among : nearer a b :: l ⊆ a :: b :: l := by
      rcases nearer_eq_or a b with same | same <;> simp [same]
    rw [List.foldl_cons]
    refine ⟨among chosen, fun m one_of => ?_⟩
    rcases List.mem_cons.1 one_of with rfl | one_of
    · exact beats_nearer.trans beats_a
    rcases List.mem_cons.1 one_of with rfl | one_of
    · exact beats_nearer.trans beats_b
    · exact beats m (List.mem_cons_of_mem _ one_of)

/-- The field starts stand in time order. -/
theorem Rtu.nearStarts_sorted (r : Rtu) : r.nearStarts.Pairwise (·.time ≤ ·.time) := by
  unfold Rtu.nearStarts
  extract_lets t next past
  have past_le : past.Pairwise (·.time ≤ ·.time) ∧ ∀ m ∈ past, m.time ≤ -(t.elapsed : Int) := by
    cases before : t.before <;> cases opened : t.opened <;> simp [past, before, opened]
  have past_le_of {l : List NearStart} (sorted : l.Pairwise (·.time ≤ ·.time))
      (after : ∀ m ∈ l, -(t.elapsed : Int) ≤ m.time) : (past ++ l).Pairwise (·.time ≤ ·.time) :=
    List.pairwise_append.2 ⟨past_le.1, sorted, fun a old b new => (past_le.2 a old).trans (after b new)⟩
  cases t.owes with
  | some x =>
    refine past_le_of ?_ ?_ <;> simp [next] <;> omega
  | none =>
    refine past_le_of ?_ ?_ <;> simp [next] <;> omega

/-- There is one of either identity: the two that fall due next alternate (R3). -/
theorem Rtu.nearStarts_identity (r : Rtu) (f : FieldId) : ∃ m ∈ r.nearStarts, m.id = f := by
  have either : f = r.timing.counted.other ∨ f = r.timing.counted := by
    cases f <;> cases r.timing.counted <;> simp [FieldId.other]
  unfold Rtu.nearStarts
  extract_lets t next past
  cases t.owes <;> rcases either with rfl | rfl <;> simp [t, or_and_right, exists_or]

/-- The field start taken is one of those near the present and of that identity, and beats every other one (R43). -/
theorem Rtu.nearestStart_beats (r : Rtu) (f : FieldId) :
    r.nearestStart f ∈ r.nearStarts ∧ (r.nearestStart f).id = f
    ∧ ∀ m ∈ r.nearStarts, m.id = f → (r.nearestStart f).Beats m := by
  have sorted := r.nearStarts_sorted.filter (fun n => n.id == f)
  have of_filter (m : NearStart) : m ∈ r.nearStarts.filter (fun n => n.id == f) ↔ m ∈ r.nearStarts ∧ m.id = f := by simp
  unfold Rtu.nearestStart
  split
  · next n rest found =>
    rw [found] at sorted of_filter
    obtain ⟨chosen, beats⟩ := foldl_nearer_beats sorted
    obtain ⟨one_of, same⟩ := (of_filter _).1 chosen
    exact ⟨one_of, same, fun m one_of same => beats m ((of_filter m).2 ⟨one_of, same⟩)⟩
  · next none_found =>
    obtain ⟨m, one_of, same⟩ := r.nearStarts_identity f
    rw [none_found] at of_filter
    exact absurd ((of_filter m).2 ⟨one_of, same⟩) List.not_mem_nil

/-- The settings that take effect at a reference are those of the standard (R52). -/
theorem VitcLines.forStd_eq (v : VitcLines) (std : Standard) :
    v.forStd std = if std = .sys30 then (v.first30, v.second30) else (v.first25, v.second25) := by
  cases std <;> rfl

/-- Settles O22: the field start that the model takes beats every other one of its identity. -/
theorem inputMatchesNearestFieldStart : Obligations.InputMatchesNearestFieldStart := by
  intro s i id time r arrived
  obtain ⟨one_of, same, beats⟩ := r.nearestStart_beats id
  refine ⟨r.nearestStart id, one_of, same, beats, ?_⟩
  simp only [← VitcLines.forStd_eq]
  rfl

/-! ### A field judged well-formed (R44, R51) -/

/-- An input in a framed state, in which every good judgement decides by the offset (R44). -/
def Siu.framed (s : Siu) : Bool := s.state == .inWindow || s.state == .outOfWindow

theorem Siu.judgedGood_state (s : Siu) (std : Standard) :
    (s.judgedGood std).state = if s.framed || s.clean != 0 then windowState std s.offset else s.state := by
  unfold Siu.judgedGood Siu.framed
  cases state : s.state with
  | inWindow | outOfWindow => rfl
  | noSignal | formatError => by_cases first : s.clean = 0 <;> simp [first]

theorem Siu.judgedGood_clean (s : Siu) (std : Standard) :
    (s.judgedGood std).clean = if s.framed then s.clean else if s.clean = 0 then 1 else 2 := by
  unfold Siu.judgedGood Siu.framed
  cases state : s.state with
  | inWindow | outOfWindow => rfl
  | noSignal | formatError => by_cases first : s.clean = 0 <;> simp [first]

theorem Siu.judgedGood_reading (s : Siu) (std : Standard) : (s.judgedGood std).reading = s.reading := by
  unfold Siu.judgedGood
  split
  · rfl
  · rfl
  · split <;> rfl

/-- A change of input state changes nothing but the notices. -/
theorem Part.inputNotice_eq (p : Part) (x y : SiuState) : p.inputNotice x y = { p with pku := (p.inputNotice x y).pku } := by
  unfold Part.inputNotice
  split
  · rfl
  · split <;> rfl

/-- INPUT_WINDOW is set at an entry into OUT_OF_WINDOW and at no other change (R44). -/
theorem Part.inputNotice_window (p : Part) (x y : SiuState) :
    (p.inputNotice x y).noticeSet .inputWindow = true
      ↔ p.noticeSet .inputWindow = true ∨ (x ≠ .outOfWindow ∧ y = .outOfWindow) := by
  unfold Part.inputNotice
  split
  · next same => simp [same]
  · next changed =>
    cases y with
    | outOfWindow => simp [changed, p.raise_noticeSet]
    | formatError => simp [p.raise_noticeSet_ne (show Notice.inputWindow ≠ .inputFormat by decide)]
    | noSignal | inWindow => simp

/-- An input that no deck holds hands its reading to none (R51). -/
theorem Part.deliver_none {p : Part} {i : Input} (x : Reading) (h : p.holder i = none) : p.deliver i x = p := by
  simp only [Part.deliver, h]

theorem Part.deliver_some {p : Part} {i : Input} {d : DeckNo} (x : Reading) (h : p.holder i = some d) :
    p.deliver i x = p.vitcMeasurement d x := by
  simp only [Part.deliver, h]

@[simp] theorem Part.deliver_aside (p : Part) (i : Input) (x : Reading) : (p.deliver i x).aside = p.aside := by
  unfold Part.deliver
  split <;> simp

@[simp] theorem Part.deliverAtEntry_aside (p : Part) (i : Input) (before : SiuState) :
    (p.deliverAtEntry i before).aside = p.aside := by
  unfold Part.deliverAtEntry
  split
  · split <;> simp
  · rfl

/-- A delivery at an entry into IN_WINDOW leaves the notices of the inputs alone. -/
theorem Part.deliverAtEntry_window (p : Part) (i : Input) (before : SiuState) :
    (p.deliverAtEntry i before).noticeSet .inputWindow = p.noticeSet .inputWindow := by
  unfold Part.deliverAtEntry Part.deliver
  split
  · split
    · rfl
    · split
      · exact Part.vitcMeasurement_noticeSet (by decide) (by decide) _ _ _
      · rfl
  · rfl

/-- The entry into IN_WINDOW hands on the reading held (R51). -/
theorem Part.deliverAtEntry_of_entry {p : Part} {i : Input} {before : SiuState} {x : Reading}
    (entered : (p.siu i).state = .inWindow) (held : (p.siu i).reading = some x) (outside : before ≠ .inWindow) :
    p.deliverAtEntry i before = p.deliver i x := by
  simp only [Part.deliverAtEntry, entered, held, if_neg outside]

theorem Part.siu_of_aside {p q : Part} (h : q.aside = p.aside) (i : Input) : q.siu i = p.siu i :=
  congrArg (·.get i.idx) (Part.sius_of_aside h)

/-- The part with an input's good judgement and its notice, before the reading held is handed on. -/
def Part.noticedGood (p : Part) (i : Input) : Part :=
  let q := p.modSiu i (fun s => { s.judgedGood p.rtu.std with closedJudging := false })
  q.inputNotice (p.siu i).state (q.siu i).state

theorem Part.inputGood_eq (p : Part) (i : Input) : p.inputGood i = (p.noticedGood i).deliverAtEntry i (p.siu i).state := rfl

/-- But for the notices a good judgement that hands on nothing is a change of its input. -/
theorem Part.noticedGood_eq (p : Part) (i : Input) :
    p.noticedGood i = { p.modSiu i (fun s => { s.judgedGood p.rtu.std with closedJudging := false }) with
      pku := (p.noticedGood i).pku } := Part.inputNotice_eq _ _ _

theorem Part.noticedGood_siu (p : Part) (i : Input) :
    (p.noticedGood i).siu i = { (p.siu i).judgedGood p.rtu.std with closedJudging := false } := by
  rw [p.noticedGood_eq i]
  exact Part.modSiu_siu_self _ _ _

theorem Part.noticedGood_siu_ne (p : Part) {i j : Input} (h : j ≠ i) : (p.noticedGood i).siu j = p.siu j := by
  rw [p.noticedGood_eq i]
  exact Part.modSiu_siu_ne _ _ h

theorem Part.noticedGood_window (p : Part) (i : Input) :
    (p.noticedGood i).noticeSet .inputWindow = true
      ↔ p.noticeSet .inputWindow = true
        ∨ ((p.siu i).state ≠ .outOfWindow ∧ ((p.siu i).judgedGood p.rtu.std).state = .outOfWindow) := by
  rw [Part.noticedGood, Part.inputNotice_window, Part.modSiu_siu_self]
  rfl

/-- Settles O23: the judgement of the SIU, the notice of its state, and the reading handed on at an entry. -/
theorem inputJudgedGood : Obligations.InputJudgedGood := by
  intro s i obs closed good u framed
  have judged : exec (.inputFieldWellFormed i obs) s = .next { s with part := s.part.inputGood i } := by
    simp only [exec, execInputFieldWellFormed, closed, good, if_true]
    rfl
  have aside : (s.part.inputGood i).aside = (s.part.noticedGood i).aside := by
    rw [s.part.inputGood_eq]
    exact Part.deliverAtEntry_aside _ _ _
  have siu : (s.part.inputGood i).siu i = { u.judgedGood s.part.rtu.std with closedJudging := false } :=
    (Part.siu_of_aside aside i).trans (s.part.noticedGood_siu i)
  have state : ((s.part.inputGood i).siu i).state
      = if framed || u.clean != 0 then windowState s.part.rtu.std u.offset else u.state := by
    rw [siu]
    exact u.judgedGood_state _
  have clean : ((s.part.inputGood i).siu i).clean = if framed then u.clean else if u.clean = 0 then 1 else 2 := by
    rw [siu]
    exact u.judgedGood_clean _
  refine ⟨s.part.inputGood i, judged, fun decides => ?window, fun kept => ?kept, fun broken second => ?second,
    fun first => ?first, ?notice, fun x held outside entered d holds => ?handed, fun j other => ?others, ?rtu⟩
  case window =>
    rw [state, if_pos decides, windowState]
    simp only [inWindow, decide_eq_true_eq]
  case kept =>
    rw [clean, if_pos kept]
  case second =>
    rw [clean, broken, if_neg second]
    rfl
  case first =>
    obtain ⟨broken, zero⟩ : framed = false ∧ u.clean = 0 := by simpa using first
    rw [state, clean, first, broken, if_pos zero]
    exact ⟨rfl, rfl⟩
  case notice =>
    rw [siu, s.part.inputGood_eq, Part.deliverAtEntry_window]
    exact s.part.noticedGood_window i
  case handed =>
    have framed_siu := s.part.noticedGood_siu i
    have entered' : ((s.part.noticedGood i).siu i).state = .inWindow := by rwa [framed_siu, ← siu]
    have held' : ((s.part.noticedGood i).siu i).reading = some x := by
      rw [framed_siu]
      exact (u.judgedGood_reading _).trans held
    have beside := s.part.noticedGood_eq i
    have holds' : (s.part.noticedGood i).holder i = some d := by
      rw [beside]
      exact holds
    rw [s.part.inputGood_eq, Part.deliverAtEntry_of_entry entered' held' outside, Part.deliver_some x holds']
    refine Part.vitcMeasurement_position_congr x ?_ ?_ ?_ <;> rw [beside] <;> rfl
  case others =>
    rw [Part.siu_of_aside aside, s.part.noticedGood_siu_ne other]
  case rtu =>
    rw [Part.rtu_of_aside aside, s.part.noticedGood_eq]
    rfl

/-! ### A field judged bad (R41, R42, R44) -/

/-- A bad judgement of an input is the change of that input, with INPUT_FORMAT at the entry into FORMAT_ERROR. -/
theorem Part.inputBad_eq (p : Part) (i : Input) (judge : Siu → Siu) :
    p.inputBad i judge = { p.modSiu i (fun _ => judge (p.siu i)) with
      pku := if (p.siu i).state = .formatError then p.pku else { p.pku with notices := p.pku.notices ||| 32#18 } } := by
  unfold Part.inputBad Part.inputNotice
  split <;> rfl

/-- Settles O24: which field is judged, by what is to be judged. -/
theorem inputJudgedBad : Obligations.InputJudgedBad := by
  intro s i cause u bad open_ judged
  have bad_of (judge : Siu → Siu) : ran s (s.part.inputBad i judge) = .next (judged (judge u)) := by
    rw [Part.inputBad_eq]
    rfl
  have fieldBad (due : u.underJudgement = true) : exec (.inputFieldBad i cause) s = .next (judged u.judgedBad) := by
    rw [← bad_of, exec, execInputFieldBad, if_pos due]
  refine ⟨fun closed => ?_, fun closed due => ?_, fun closed due => ?_, fun due => ?_, fun due => ?_, rfl⟩
  · rw [fieldBad (by simp [Siu.underJudgement, closed]), Siu.judgedBad, if_pos closed]
  · rw [fieldBad (by simp [Siu.underJudgement, due]), Siu.judgedBad, if_neg (by simp [closed])]
  · have none_due : u.underJudgement = false := by simp [Siu.underJudgement, closed, due]
    rw [exec, execInputFieldBad, if_neg (by simpa using none_due)]
    rfl
  · rw [exec, execInputSilenceBad, if_pos due, bad_of]
    rfl
  · rw [exec, execInputSilenceBad, if_neg (by simpa using due)]
    rfl

end Sys2Proof.Machine
end

section
/-! ## Store slips and the VITC of an input (O25) -/

namespace Sys2Proof.Machine

open Sys2Proof

/-! ### The cells of a line (R49) -/

/-- The cells set one after another: each cell of those reached reads its own condition. -/
theorem foldl_setCell_getLsbD (P : Nat → Prop) [DecidablePred P] (n : Nat) {c : Nat} (h : c < 90) :
    ((List.range n).foldl (fun a k => if P k then a ||| (1#90 <<< k) else a) 0).getLsbD c = decide (c < n ∧ P c) := by
  induction n with
  | zero => simp
  | succ n ih =>
    rw [List.range_succ, List.foldl_append, List.foldl_cons, List.foldl_nil]
    have cell : (1#90 <<< n).getLsbD c = decide (c = n) := by
      rw [← BitVec.twoPow_eq, BitVec.getLsbD_twoPow, ← Bool.decide_and, decide_eq_decide]
      omega
    by_cases here : c = n
    · subst here
      split <;> simp_all
    · have before : c < n + 1 ↔ c < n := by omega
      split <;> simp_all

/-- A cell is 1 exactly where its luma sample lies above 502 (R49). -/
theorem cellsOf_getLsbD (luma : List Nat) {c : Nat} (h : c < 90) :
    (cellsOf luma).getLsbD c = true ↔ 502 < luma.getD (8 * c + 4) 0 := by
  rw [cellsOf, foldl_setCell_getLsbD _ 90 h]
  simp [h]

/-! ### What a line reads (R49, Table 3-1) -/

theorem cellBit_eq (v : BitVec 90) (c : Nat) : cellBit v c = (v.toNat.testBit c).toNat := by
  rw [cellBit, ← BitVec.testBit_toNat]
  cases v.toNat.testBit c <;> rfl

/-- The bits of a number from `k` on, summed with their weights. -/
theorem foldl_testBit (x k n : Nat) :
    (List.range n).foldl (fun a i => a + (x.testBit (k + i)).toNat * 2 ^ i) 0 = x / 2 ^ k % 2 ^ n := by
  induction n with
  | zero => simp [Nat.mod_one]
  | succ n ih =>
    rw [List.range_succ, List.foldl_append, ih, List.foldl_cons, List.foldl_nil, Nat.mod_pow_succ, Nat.toNat_testBit,
      Nat.div_div_eq_div_mul, ← Nat.pow_add, Nat.mul_comm]

/-- A group is the eight cells behind its synchronising pair, as a number. -/
theorem vitcGroup_eq (v : BitVec 90) (g : Nat) : vitcGroup v g = v.toNat / 2 ^ (10 * (g - 1) + 2) % 256 := by
  simp only [vitcGroup, cellBit_eq]
  exact foldl_testBit v.toNat _ 8

theorem fieldOfBit_testBit (n : Nat) : fieldOfBit (n / 8 % 2) = if n.testBit 3 then .two else .one := by
  rw [Nat.testBit_eq_decide_div_mod_eq]
  rcases Nat.mod_two_eq_zero_or_one (n / 8) with bit | bit <;> simp [fieldOfBit, bit]

theorem dropBit_testBit (n : Nat) : (n / 4 % 2 == 1) = n.testBit 2 := by
  rw [Nat.testBit_eq_decide_div_mod_eq]
  rfl

theorem vitcDigits_eq (v : BitVec 90) :
    vitcDigits v = decide (vitcGroup v 1 % 16 ≤ 9 ∧ vitcGroup v 3 % 16 ≤ 9 ∧ vitcGroup v 5 % 16 ≤ 9
      ∧ vitcGroup v 7 % 16 ≤ 9) := by
  rw [Bool.eq_iff_iff]
  simp [vitcDigits]

theorem vitcSum_eq (v : BitVec 90) :
    vitcSum v = decide ((vitcGroup v 1 + vitcGroup v 2 + vitcGroup v 3 + vitcGroup v 4 + vitcGroup v 5 + vitcGroup v 6
      + vitcGroup v 7 + vitcGroup v 8 + vitcGroup v 9) % 256 = 0) := by
  have total : (List.range 9).foldl (fun a k => a + vitcGroup v (k + 1)) 0 = vitcGroup v 1 + vitcGroup v 2
      + vitcGroup v 3 + vitcGroup v 4 + vitcGroup v 5 + vitcGroup v 6 + vitcGroup v 7 + vitcGroup v 8 + vitcGroup v 9 := by
    simp [List.range_succ]
  rw [vitcSum, total]
  rfl

theorem labelInRange_eq (c : Counting) (l : Label) :
    labelInRange c l = decide (l.hh ≤ 23 ∧ l.mm ≤ 59 ∧ l.ss ≤ 59 ∧ l.ff < Config.labelRate c.std) := by
  rw [Bool.eq_iff_iff]
  simp only [labelInRange, Bool.and_eq_true, decide_eq_true_eq, and_assoc]
  rfl

/-! ### Lines of an input (R46, R49, R50) -/

/-- An arriving line leaves of its input's VITC what the lines in use take, and brings the reading where it is the line
after the later one (R49, R50). -/
theorem State.receiveInputLine_siu (s : State) (i : Input) (v : VideoLine) :
    ((s.receiveInputLine i v).part.siu i)
      = (((s.part.siu i).nextLine).storeLine s.part.rtu.std v).keepVitc v.luma := by
  unfold State.receiveInputLine
  dsimp only
  split <;> exact Part.modSiu_siu_self _ _ _

theorem State.receiveInputLine_pending (s : State) (i : Input) (v : VideoLine) :
    (s.receiveInputLine i v).pending = s.pending
      ++ if (s.part.siu i).nextLine.vitcEnded then
          [.vitcReading i (s.part.siu i).vitcFirst (s.part.siu i).vitcSecond] else [] := by
  unfold State.receiveInputLine
  dsimp only
  split
  · rfl
  · simp

/-- The later VITC line ends where the line in progress was that line (R50). -/
theorem Siu.nextLine_vitcEnded (u : Siu) :
    u.nextLine.vitcEnded = (decide (u.line = max u.vitcInUse.1 u.vitcInUse.2) && !u.formed) := by
  simp [Siu.vitcEnded, Siu.nextLine]
  rfl

/-! ### Store slips (R47) -/

/-- With a look-up held, it decides its own line (R47). -/
theorem Siu.lookUpFor_held {u : Siu} {l : LookUp} (held : u.lookedUp = some l) (field line : Nat) :
    (u.lookUpFor field line).found = if l.field = field ∧ l.line = line then l.found else u.storedFor field line := by
  simp only [Siu.lookUpFor, held]
  split <;> rfl

/-- With none held, the store is looked at now (log entry 47). -/
theorem Siu.lookUpFor_now {u : Siu} (held : u.lookedUp = none) (field line : Nat) :
    u.lookUpFor field line = u.look field line := by
  simp only [Siu.lookUpFor, held]

theorem Table.modify_modify {α : Type} {n : Nat} (t : Table α n) (i : Fin n) (f g : α → α) :
    (t.modify i f).modify i g = t.modify i (fun a => g (f a)) := by
  refine Table.ext_get fun j => ?_
  by_cases same : j = i
  · simp [same]
  · simp only [Table.get_modify_ne _ _ same]

/-- Two changes of one input are one. -/
theorem Part.modSiu_modSiu (p : Part) (i : Input) (f g : Siu → Siu) :
    (p.modSiu i f).modSiu i g = p.modSiu i (fun u => g (f u)) := by
  rw [Part.modSiu, Part.modSiu_sius, Table.modify_modify]
  rfl

/-- A slip of an input in the window: the line is black, and the input leaves the window with INPUT_WINDOW (R47). -/
theorem Part.slip_framed {p : Part} {i : Input} (field line : Nat) (framed : (p.siu i).state = .inWindow) :
    p.slip i field line
      = (p.modSiu i fun u => { u with
          state := .outOfWindow, lookedUp := some { field := field, line := line, found := none } }).raise .inputWindow := by
  rw [Part.slip, if_pos framed, Part.modSiu_modSiu]
  rfl

/-- Of another input only the line is black. -/
theorem Part.slip_unframed {p : Part} {i : Input} (field line : Nat) (unframed : (p.siu i).state ≠ .inWindow) :
    p.slip i field line
      = p.modSiu i fun u => { u with lookedUp := some { field := field, line := line, found := none } } :=
  if_neg unframed

theorem exec_storeSlip (s : State) (i : Input) (line : Nat) {f : OutputField} (sent : s.part.rtu.outputField = some f) :
    exec (.storeSlip i line) s
      = ran s (if (s.part.siu i).slips f.count line then s.part.slip i f.count line else s.part) := by
  simp only [exec, execStoreSlip, sent]

theorem exec_storeSlip_unsent (s : State) (i : Input) (line : Nat) (sent : s.part.rtu.outputField = none) :
    exec (.storeSlip i line) s = .next s := by
  simp only [exec, execStoreSlip, sent]
  rfl

/-! ### The reading (R50, R51) -/

/-- The first line's reading where it has one, else the second's, which with both settings on one line is that line's
(R50). -/
theorem readingOf_eq_or (std : Standard) (sameLine : Bool) (first second : VitcLine) :
    readingOf std sameLine first second
      = (readVitcLine first std).or (readVitcLine (if sameLine then first else second) std) := by
  unfold readingOf
  cases read : readVitcLine first std <;> cases sameLine <;> simp [read]

/-- The part with the reading of an input formed, before it is handed on. -/
def Part.withFormed (p : Part) (i : Input) (first second : VitcLine) : Part :=
  p.modSiu i (·.withReading (readingOf p.rtu.std ((p.siu i).vitcInUse.1 == (p.siu i).vitcInUse.2) first second))

/-- Outside IN_WINDOW a reading goes no further than its input (R51). -/
theorem Part.formReading_outside {p : Part} {i : Input} (first second : VitcLine) (h : (p.siu i).state ≠ .inWindow) :
    p.formReading i first second = p.withFormed i first second := by
  unfold Part.formReading
  extract_lets u x q
  split
  · next y state _ => exact absurd state h
  · rfl

theorem Part.formReading_none {p : Part} {i : Input} {first second : VitcLine}
    (h : ((p.withFormed i first second).siu i).reading = none) :
    p.formReading i first second = p.withFormed i first second := by
  unfold Part.formReading
  extract_lets u x q
  split
  · next y _ formed => exact absurd (h.symm.trans formed) (by simp)
  · rfl

/-- In IN_WINDOW a reading that is formed is handed on (R51). -/
theorem Part.formReading_handed {p : Part} {i : Input} {first second : VitcLine} {x : Reading}
    (framed : (p.siu i).state = .inWindow) (formed : ((p.withFormed i first second).siu i).reading = some x) :
    p.formReading i first second = (p.withFormed i first second).deliver i x := by
  unfold Part.formReading
  extract_lets u y q
  split
  · next y _ other =>
    obtain rfl : y = x := Option.some.inj (other.symm.trans formed)
    rfl
  · next other => exact absurd formed (other x framed)

@[simp] theorem Part.formReading_aside (p : Part) (i : Input) (first second : VitcLine) :
    (p.formReading i first second).aside = (p.withFormed i first second).aside := by
  unfold Part.formReading
  extract_lets u x q
  split
  · exact q.deliver_aside i _
  · rfl

/-- The fields elapsed, counted with the count's modulus (R65). -/
theorem Rtu.elapsedFields_cast (r : Rtu) (field : Nat) :
    (r.elapsedFields field : Int) = ((r.fieldCount : Int) - field) % 2 ^ 24 :=
  Int.toNat_of_nonneg (Int.emod_nonneg _ (by decide))

/-- Settles O25: the cells and the readings bit by bit, the slip by what is found, and the measurement by its deck. -/
theorem storeSlipAndReading : Obligations.StoreSlipAndReading := by
  intro s i line first second v u group named passes reads read t kept ended formed found
  have group_eq (w : BitVec 90) (g : Nat) : vitcGroup w g = group w g := vitcGroup_eq w g
  have label_eq (w : BitVec 90) : vitcLabel w = (named w, (group w 2).testBit 2) := by
    simp only [vitcLabel, group_eq, fieldOfBit_testBit, dropBit_testBit]
    rfl
  have passes_eq (w : BitVec 90) : (vitcSync w && vitcSum w && vitcDigits w
      && labelInRange { std := s.part.rtu.std, drop := false } (vitcLabel w).1) = passes w := by
    rw [vitcSum_eq, vitcDigits_eq, labelInRange_eq, label_eq]
    simp only [group_eq]
    rfl
  have reads_eq (x : VitcLine) : readVitcLine x s.part.rtu.std = reads x := by
    cases x with
    | notReached => rfl
    | cells w => rw [readVitcLine, passes_eq, label_eq]
  have read_eq : readingOf s.part.rtu.std (u.vitcInUse.1 == u.vitcInUse.2) first second = read := by
    rw [readingOf_eq_or, reads_eq, reads_eq]
    simp only [beq_iff_eq, read]
    cases reads first <;> cases reads (if u.vitcInUse.1 = u.vitcInUse.2 then first else second) <;> rfl
  have found_eq (f : OutputField) : (u.lookUpFor f.count line).found = found f := by
    cases held : u.lookedUp with
    | some l => simp only [found, Siu.lookUpFor_held held, held]
    | none =>
      simp only [found, Siu.lookUpFor_now held, held]
      rfl
  have formed_eq : s.part.withFormed i first second = s.part.modSiu i (fun _ => formed) := by
    show s.part.modSiu i (fun _ => u.withReading _) = _
    rw [read_eq]
    rfl
  have formed_siu : (s.part.modSiu i (fun _ => formed)).siu i = formed := s.part.modSiu_siu_self i _
  have kept_of (old : VitcLine) (n : Nat) : kept (if u.line + 1 = n then vitcLineOf v.luma else old) old n := by
    by_cases here : u.line + 1 = n
    · simp only [kept, here, if_true]
      exact ⟨cellsOf v.luma, rfl, fun c inside => cellsOf_getLsbD _ inside⟩
    · simp only [kept, here, if_false]
  have aside : (s.part.formReading i first second).aside = (s.part.modSiu i (fun _ => formed)).aside := by
    rw [Part.formReading_aside, formed_eq]
  refine ⟨⟨?firstCells, ?secondCells, ?queued⟩, fun f sent slips => ?slip, fun supplied => ?noSlip,
    fun outside => ?outside,
    s.part.formReading i first second, rfl, (Part.siu_of_aside aside i).trans formed_siu,
    Part.rtu_of_aside (p := s.part.modSiu i (fun _ => formed)) aside, fun x held framed => ?measured⟩
  case firstCells =>
    rw [State.receiveInputLine_siu]
    exact kept_of u.vitcFirst u.vitcInUse.1
  case secondCells =>
    rw [State.receiveInputLine_siu]
    exact kept_of u.vitcSecond u.vitcInUse.2
  case queued => rw [State.receiveInputLine_pending, Siu.nextLine_vitcEnded]
  case slip =>
    have slipped : u.slips f.count line = true := by
      rw [Siu.slips, found_eq, slips]
      rfl
    rw [exec_storeSlip s i line sent, if_pos slipped]
    intro black
    refine ⟨fun framed => ?_, fun unframed => ?_⟩
    · rw [Part.slip_framed _ _ framed]
      rfl
    · rw [Part.slip_unframed _ _ unframed]
      rfl
  case noSlip =>
    cases sent : s.part.rtu.outputField with
    | none => exact exec_storeSlip_unsent s i line sent
    | some f =>
      have unslipped : ¬ u.slips f.count line = true := by
        rw [Siu.slips, found_eq]
        simpa using supplied f sent
      rw [exec_storeSlip s i line sent, if_neg unslipped]
      rfl
  case outside =>
    rw [exec, execVitcReading, Part.formReading_outside first second outside, formed_eq]
    rfl
  case measured =>
    intro c taken
    have handed : s.part.formReading i first second = (s.part.modSiu i (fun _ => formed)).deliver i x := by
      rw [← formed_eq]
      refine Part.formReading_handed framed ?_
      rw [formed_eq, formed_siu, held]
    refine ⟨fun unheld => handed.trans (Part.deliver_none x unheld), fun d holds => ?_⟩
    intro k gone
    have measured := handed.trans (Part.deliver_some x holds)
    have record (takes : taken = true) : ((s.part.formReading i first second).deck d).position
        = k.vitcMeasured c.day (labelPosition c x.label) (s.part.rtu.elapsedFields x.field) := by
      rw [measured]
      exact Part.vitcMeasurement_position _ d x takes
    have elapsed : k.motion * (s.part.rtu.elapsedFields x.field : Int) = gone := by
      rw [Rtu.elapsedFields_cast]
    refine ⟨fun e other => ?_, fun discarded => measured.trans (Part.vitcMeasurement_discarded _ d x discarded),
      fun takes used => ?_, fun takes prefers recent => ?_⟩
    · rw [measured, Part.vitcMeasurement_position_ne _ x other]
      rfl
    · rw [record takes, PosRec.vitcMeasured, if_pos used, PosRec.replaced, moved, elapsed]
    · have unused : ¬ (k.preference = .vitcFirst ∨ 2 < k.deckAge) := by
        rw [prefers]
        simpa using recent
      rw [record takes, PosRec.vitcMeasured, if_neg unused]

end Sys2Proof.Machine
end

section
/-! ## The pictures of the active lines (O55) -/

namespace Sys2Proof.Machine

open Sys2Proof

/-! ### The composition in the form of R160 to R164 -/

/-- Two reversals make none (R163). -/
theorem ite_xor {α : Type} (a b : Bool) (x y : α) : (if Bool.xor a b then x else y) = if a = b then y else x := by
  cases a <;> cases b <;> rfl

theorem ActiveSet.coefficient_wipe {a : ActiveSet} (wipe : a.params.transition = .wipe) (x line : Nat) :
    a.coefficient x line = wipeCoefficient a.params.level a.params.softness
      (patternValue a.pattern a.params.reverse (Config.frameHeight a.std) x line) := by
  simp only [ActiveSet.coefficient, wipe]

/-- With no wipe the coefficient of every sample is the level (R160). -/
theorem ActiveSet.coefficient_level {a : ActiveSet} (other : a.params.transition ≠ .wipe) (x line : Nat) :
    a.coefficient x line = a.params.level := by
  unfold ActiveSet.coefficient
  split
  · next wipe => exact absurd wipe other
  · rfl

/-- The bit of a field that the frame lines interleave by (section 0.4). -/
theorem fieldBit_eq (f : FieldId) : fieldBit f = if f = .one then 0 else 1 := by
  cases f <;> rfl

/-- A chroma sample takes the coefficients of the even luma sample (R160). -/
theorem cosited_eq (c : Component) (x : Nat) : cosited c x = match c with
    | .y => x
    | _ => x / 2 * 2 := by
  have even : x - x % 2 = x / 2 * 2 := by omega
  cases c with
  | y => rfl
  | cb | cr => exact even

theorem ActiveSet.preview_eq (a : ActiveSet) (lines : Table VideoLine 3) (c : Component) (x : Nat) :
    a.preview lines c x = a.offers lines (if a.owner = .eds then a.params.bg2 else a.params.pvw) c x := by
  unfold ActiveSet.preview
  cases a.owner <;> rfl

/-! ### Legal samples (R48, R153, R161) -/

/-- A sample code that may stand on an active line (R48). -/
def Legal (v : Nat) : Prop := 4 ≤ v ∧ v ≤ 1019

/-- A line of legal samples. -/
def VideoLine.AllLegal (l : VideoLine) : Prop :=
  (∀ v ∈ l.luma, Legal v) ∧ (∀ v ∈ l.cb, Legal v) ∧ (∀ v ∈ l.cr, Legal v)

theorem getD_legal {l : List Nat} {black : Nat} (all : ∀ v ∈ l, Legal v) (h : Legal black) (n : Nat) : Legal (l.getD n black) := by
  rcases Nat.lt_or_ge n l.length with inside | past
  · rw [List.getD_eq_getElem l black inside]
    exact all _ (List.getElem_mem inside)
  · rwa [List.getD_eq_default l black past]

theorem blackCode_legal (c : Component) : Legal (blackCode c) := by
  cases c <;> exact ⟨by decide, by decide⟩

theorem VideoLine.pick_legal {l : VideoLine} (all : l.AllLegal) (c : Component) (x : Nat) : Legal (l.pick c x) := by
  obtain ⟨luma, cb, cr⟩ := all
  cases c with
  | y => exact getD_legal luma (blackCode_legal .y) x
  | cb => exact getD_legal cb (blackCode_legal .cb) _
  | cr => exact getD_legal cr (blackCode_legal .cr) _

theorem barsAt_legal (c : Component) (x : Nat) : Legal (barsAt c x) := by
  unfold barsAt bar
  split <;> exact ⟨by decide, by decide⟩

section
variable {a : ActiveSet} {lines : Table VideoLine 3} (all : ∀ i, (lines.get i).AllLegal)
include all

theorem ActiveSet.inputOffers_legal (i : Input) (c : Component) (x : Nat) : Legal (a.inputOffers lines i c x) := by
  unfold ActiveSet.inputOffers
  split
  · next policy _ =>
    cases policy with
    | black => exact blackCode_legal c
    | bars => exact barsAt_legal c x
  · exact VideoLine.pick_legal (all i.idx) c x

/-- Every source offers legal samples (R153, R154). -/
theorem ActiveSet.offers_legal (source : Source) (c : Component) (x : Nat) : Legal (a.offers lines source c x) := by
  cases source with
  | a | b | c => exact ActiveSet.inputOffers_legal all _ c x
  | black => exact blackCode_legal c
  | bars => exact barsAt_legal c x

end

/-- A mix of legal samples is legal: it lies between them (R160, R161). -/
theorem mixed_legal {v1 v2 k : Nat} (first : Legal v1) (second : Legal v2) (h : k ≤ 1024) : Legal (mixed v1 v2 k) := by
  obtain ⟨j, rest⟩ := Nat.exists_eq_add_of_le h
  have j_eq : 1024 - k = j := by omega
  have low1 := Nat.mul_le_mul_right j first.1
  have high1 := Nat.mul_le_mul_right j first.2
  have low2 := Nat.mul_le_mul_right k second.1
  have high2 := Nat.mul_le_mul_right k second.2
  unfold Legal mixed
  rw [j_eq]
  omega

theorem toNat_clampInt_le (v : Int) : (clampInt 0 1024 v).toNat ≤ 1024 := by
  obtain ⟨_, high⟩ := clampInt_bounds (show (0 : Int) ≤ 1024 by decide) v
  omega

theorem keyCoefficient_le (yk clip gain : Nat) (invert : Bool) : keyCoefficient yk clip gain invert ≤ 1024 := by
  unfold keyCoefficient
  extract_lets k
  have inside : k ≤ 1024 := toNat_clampInt_le _
  split <;> omega

theorem wipeCoefficient_le (level softness value : Nat) : wipeCoefficient level softness value ≤ 1024 := by
  unfold wipeCoefficient
  extract_lets h edge d
  split
  · split <;> decide
  · exact toNat_clampInt_le _

/-- At a legal level every mix coefficient is one of the mixing formula (R160, R164). -/
theorem ActiveSet.coefficient_le {a : ActiveSet}
    (level : a.params.level ≤ if a.params.transition = .wipe then 4096 else 1024) (x line : Nat) :
    a.coefficient x line ≤ 1024 := by
  by_cases wipe : a.params.transition = .wipe
  · rw [ActiveSet.coefficient_wipe wipe]
    exact wipeCoefficient_le _ _ _
  · rw [ActiveSet.coefficient_level wipe]
    rwa [if_neg wipe] at level

/-- PGM of legal lines at a legal level is legal (R161). -/
theorem ActiveSet.program_legal {a : ActiveSet} {lines : Table VideoLine 3} (all : ∀ i, (lines.get i).AllLegal)
    (level : a.params.level ≤ if a.params.transition = .wipe then 4096 else 1024) (c : Component) (x line : Nat) :
    Legal (a.program lines c x line) := by
  have background : Legal (a.background lines c x line) :=
    mixed_legal (ActiveSet.offers_legal all _ _ _) (ActiveSet.offers_legal all _ _ _) (ActiveSet.coefficient_le level _ _)
  unfold ActiveSet.program
  split
  · exact mixed_legal background (ActiveSet.offers_legal all _ _ _) (keyCoefficient_le _ _ _ _)
  · exact background

/-! ### What the SIUs supply (R47, R48) -/

theorem Part.suppliedLines_get (p : Part) (f : OutputField) (n : Nat) (i : Input) :
    (p.suppliedLines f n).get i.idx = (p.siu i).supplies f.count n := Table.get_map _ _ _

theorem clampCode_eq (v : Nat) : clampCode v = max 4 (min 1019 v) := clampTo_eq (by decide) v

/-- A look-up held for its line stands for the whole line (R47). -/
theorem Siu.lookUpFor_eq {u : Siu} {l : LookUp} (held : u.lookedUp = some l) {field line : Nat} (same : l.field = field)
    (here : l.line = line) : u.lookUpFor field line = l := by
  simp [Siu.lookUpFor, held, same, here]

/-- A line found is supplied clamped (R48). -/
theorem Siu.supplies_found {u : Siu} {field line : Nat} {y : StoredLine} (h : (u.lookUpFor field line).found = some y) :
    u.supplies field line = { luma := y.luma.map clampCode, cb := y.cb.map clampCode, cr := y.cr.map clampCode } := by
  simp only [Siu.supplies, h]

/-- A line that is not found is black (R47). -/
theorem Siu.supplies_black {u : Siu} {field line : Nat} (h : (u.lookUpFor field line).found = none) :
    u.supplies field line = blackLine := by
  simp only [Siu.supplies, h]

/-- Settles O55: the composition by the transition, legality source by source, and the supply by the look-up held. -/
theorem samplesStayLegal : Obligations.SamplesStayLegal := by
  refine ⟨?_, ?_, ?_⟩
  · intro a lines c x line q height sx sy far shape value h d k even mix background above kk
    have height_eq : Config.frameHeight a.std = height := by
      simp only [height]
      cases a.std <;> rfl
    have shape_eq (x : Nat) : shapeValue a.pattern.shape (sx x) sy = shape x := by
      simp only [shape]
      cases a.pattern.shape <;> rfl
    have value_eq (x : Nat) : patternValue a.pattern q.reverse (Config.frameHeight a.std) x line = value x := by
      rw [patternValue, ite_xor, height_eq, shape_eq]
    have k_eq (x : Nat) : a.coefficient x line = k x := by
      by_cases wipe : q.transition = .wipe
      · rw [ActiveSet.coefficient_wipe wipe, value_eq, wipeCoefficient, clampInt_eq (by decide)]
        exact (if_neg (not_not_intro wipe)).symm
      · rw [ActiveSet.coefficient_level wipe]
        exact (if_pos wipe).symm
    have even_eq : cosited c x = even := cosited_eq c x
    have background_eq : a.background lines c x line = background := by
      rw [ActiveSet.background, even_eq, k_eq]
      rfl
    have kk_eq : keyCoefficient (a.inputOffers lines q.keyInput .y (cosited c x)) q.clip q.gain q.invert = kk := by
      rw [keyCoefficient, clampInt_eq (by decide), even_eq]
    refine ⟨?_, a.preview_eq lines c x⟩
    rw [ActiveSet.program, background_eq, kk_eq]
    rfl
  · intro a lines c x line all level
    obtain ⟨low, high⟩ := ActiveSet.program_legal all level c x line
    obtain ⟨low', high'⟩ : Legal (a.preview lines c x) := by
      rw [ActiveSet.preview_eq]
      exact ActiveSet.offers_legal all _ _ _
    exact ⟨ActiveSet.coefficient_le level x line, keyCoefficient_le, low, high, low', high'⟩
  · intro p f n i l c x supplied clamp first
    have clamp_eq : clampCode = clamp := funext clampCode_eq
    refine ⟨fun v one_of => ?_, fun held same here => ?_, fun low high onAir => ?_⟩
    · rw [p.suppliedLines_get] at one_of
      exact (p.siu i).supplies_legal _ _ v one_of
    · have holds := Siu.lookUpFor_eq held same here
      refine (p.suppliedLines_get f n i).trans ?_
      cases found : l.found with
      | some y =>
        have supplied_line := Siu.supplies_found (holds ▸ found)
        rwa [clamp_eq] at supplied_line
      | none => exact Siu.supplies_black (holds ▸ found)
    · have active : f.isActive n = true := decide_eq_true ⟨low, high⟩
      constructor
      · rw [Part.pgmLine, if_pos active, if_pos onAir, frameLine, fieldBit_eq]
      · rw [Part.pvwLine, active, onAir]
        rfl

end Sys2Proof.Machine
end

section
/-! ## Labels and counts (O29)

The label of a count counts back, in drop-frame by way of the count with the skipped labels put back (R55 to R57). -/

namespace Sys2Proof.Machine

open Sys2Proof

/-! ### The non-drop formulas -/

theorem labelInRange_iff (c : Counting) (l : Label) :
    labelInRange c l = true ↔ l.hh ≤ 23 ∧ l.mm ≤ 59 ∧ l.ss ≤ 59 ∧ l.ff < c.rate := by
  simp only [labelInRange, Bool.and_eq_true, decide_eq_true_eq, and_assoc]

/-- The digits of a plain label put its seconds together again. -/
theorem plainLabel_seconds (rate n : Nat) (f : FieldId) :
    3600 * (plainLabel rate n f).hh + 60 * (plainLabel rate n f).mm + (plainLabel rate n f).ss = n / rate := by
  show 3600 * (n / rate / 3600) + 60 * (n / rate / 60 % 60) + n / rate % 60 = n / rate
  omega

/-- Its hours and minutes put the minutes together again. -/
theorem plainLabel_minutes (rate n : Nat) (f : FieldId) :
    60 * (plainLabel rate n f).hh + (plainLabel rate n f).mm = n / rate / 60 := by
  show 60 * (n / rate / 3600) + n / rate / 60 % 60 = n / rate / 60
  omega

/-- A plain label of a count within the 86,400 seconds of a day is in range. -/
theorem plainLabel_inRange {c : Counting} {n : Nat} (h : n < 86400 * c.rate) (f : FieldId) :
    labelInRange c (plainLabel c.rate n f) = true := by
  have positive : 0 < c.rate := Nat.pos_of_ne_zero fun zero => by simp [zero] at h
  have seconds : n / c.rate < 86400 := (Nat.div_lt_iff_lt_mul positive).2 h
  have frames : n % c.rate < c.rate := Nat.mod_lt _ positive
  have digits : n / c.rate / 3600 ≤ 23 ∧ n / c.rate / 60 % 60 ≤ 59 ∧ n / c.rate % 60 ≤ 59 := by omega
  exact (labelInRange_iff _ _).2 ⟨digits.1, digits.2.1, digits.2.2, frames⟩

/-! ### The skipped labels (R56) -/

theorem isSkipped_iff (c : Counting) (l : Label) :
    isSkipped c l = true ↔ c.drop = true ∧ l.ss = 0 ∧ l.ff < 2 ∧ l.mm % 10 ≠ 0 := by
  simp only [isSkipped, Bool.and_eq_true, beq_iff_eq, decide_eq_true_eq, bne_iff_ne, and_assoc]

/-- Without drop-frame no label is skipped. -/
theorem isSkipped_plain {c : Counting} (h : c.drop = false) (l : Label) : isSkipped c l = false := by
  simp [isSkipped, h]

/-- The count of a label that is not skipped. -/
theorem labelCount_of_counted {c : Counting} {l : Label} (h : isSkipped c l = false) : labelCount c l = rawCount c l := by
  simp [labelCount, normalise, h]

/-- The count with the skipped labels put back is 2 frames further on for each minute but the tenth ones, and stands on
neither of the first two frames of any other minute (R57). -/
theorem undropped_spec {n : Nat} (h : n < 2589408) :
    undropped n < 2592000 ∧ undropped n - 2 * (undropped n / 30 / 60 - undropped n / 30 / 60 / 10) = n
    ∧ (undropped n / 30 % 60 = 0 → undropped n % 30 < 2 → undropped n / 30 / 60 % 10 = 0) := by
  have minute : undropped n / 30 / 60 = undropped n / 1800 := Nat.div_div_eq_div_mul ..
  have second : undropped n / 30 % 60 = undropped n % 1800 / 30 := by omega
  rw [minute, second]
  unfold undropped
  split <;> omega

theorem countLabel_drop {c : Counting} (h : c.drop = true) (n : Nat) (f : FieldId) :
    countLabel c n f = plainLabel 30 (undropped n) f := by
  simp [countLabel, h]

theorem countLabel_plain {c : Counting} (h : c.drop = false) (n : Nat) (f : FieldId) :
    countLabel c n f = plainLabel c.rate n f := by
  simp [countLabel, h]

/-- In drop-frame the label of a count is not a skipped one. -/
theorem countLabel_drop_counted {c : Counting} (h : c.drop = true) {n : Nat} (day : n < 2589408) (f : FieldId) :
    isSkipped c (countLabel c n f) = false := by
  obtain ⟨-, -, tenth⟩ := undropped_spec day
  rw [countLabel_drop h]
  refine Bool.eq_false_iff.2 fun skipped => ?_
  obtain ⟨-, second, frame, minute⟩ := (isSkipped_iff _ _).1 skipped
  have whole := tenth second frame
  exact minute (show undropped n / 30 / 60 % 60 % 10 = 0 by omega)

/-- In drop-frame the digits of the label of a count count back. -/
theorem rawCount_countLabel_drop {c : Counting} (h : c.drop = true) {n : Nat} (day : n < 2589408) (f : FieldId) :
    rawCount c (countLabel c n f) = n := by
  obtain ⟨-, back, -⟩ := undropped_spec day
  rw [countLabel_drop h, rawCount, if_pos h, plainLabel_seconds, plainLabel_minutes]
  refine Eq.trans ?_ back
  rw [show (plainLabel 30 (undropped n) f).ff = undropped n % 30 from rfl, Nat.div_add_mod']

/-- Without drop-frame the digits of a plain label count back. -/
theorem rawCount_plainLabel {c : Counting} (h : c.drop = false) (n : Nat) (f : FieldId) :
    rawCount c (plainLabel c.rate n f) = n := by
  have seconds := plainLabel_seconds c.rate n f
  rw [rawCount, if_neg (by simp [h]), show ∀ a b d : Nat, (60 * a + b) * 60 + d = 3600 * a + 60 * b + d by omega, seconds]
  exact Nat.div_add_mod' n c.rate

/-! ### Every counting -/

/-- Drop-frame counting is SYS-30's (R54). -/
theorem countingOf_cases (std : Standard) (df : Bool) :
    ((countingOf std df).drop = true ∧ (countingOf std df).rate = 30 ∧ (countingOf std df).dayFrames = 2589408)
    ∨ ((countingOf std df).drop = false ∧ (countingOf std df).dayFrames = 86400 * (countingOf std df).rate) := by
  cases std <;> cases df <;> decide

/-- Settles O29: drop-frame by the count with the skipped labels put back, the other countings by the plain digits. -/
theorem labelOfCountCountsBack : Obligations.LabelOfCountCountsBack := by
  intro std df n f day
  rcases countingOf_cases std df with ⟨drop, rate, frames⟩ | ⟨plain, frames⟩
  · rw [frames] at day
    have counted := countLabel_drop_counted drop day f
    refine ⟨?_, counted, (labelCount_of_counted counted).trans (rawCount_countLabel_drop drop day f),
      by rw [countLabel_drop drop]; rfl⟩
    rw [countLabel_drop drop, ← rate]
    exact plainLabel_inRange (by rw [rate]; exact (undropped_spec day).1) f
  · rw [frames] at day
    have counted := isSkipped_plain plain (countLabel (countingOf std df) n f)
    rw [labelCount_of_counted counted]
    refine ⟨?_, counted, ?_, by rw [countLabel_plain plain]; rfl⟩ <;> rw [countLabel_plain plain]
    · exact plainLabel_inRange day f
    · exact rawCount_plainLabel plain n f

end Sys2Proof.Machine
end

section
/-! ## Marks, stale records and the change of counting (O26, O27, O28) -/

namespace Sys2Proof.Machine

open Sys2Proof

/-! ### Marks (R72 to R76) -/

/-- A push: the mark on top of the eight newest, and its notices (R72). -/
theorem Part.pushMark_eq (p : Part) (m : Mark) :
    p.pushMark m = { p with
      tcu := { p.tcu with marks := (m :: p.tcu.marks).take 8 }
      pku := { p.pku with notices :=
        if p.tcu.marks.length < 8 then p.pku.notices ||| 1024#18 else p.pku.notices ||| 3072#18 } } := by
  have both : (p.pku.notices ||| Notice.markTaken.mask) ||| Notice.markOverflow.mask = p.pku.notices ||| 3072#18 :=
    BitVec.or_assoc ..
  by_cases room : p.tcu.marks.length < 8
  · rw [if_pos room]
    exact if_pos room
  · rw [if_neg room, ← both]
    exact if_neg room

theorem exec_markPush_label (s : State) (off : Nat) (d : DeckNo) (raw : RawLabel) :
    exec (.markPush off d.val { alt := 0, label := raw }) s = dispatched s 0x31 off (s.part.pushLabel d raw) := by
  show execMarkPush off d.val { alt := 0, label := raw } s = _
  simp only [execMarkPush, deckOf_val]

theorem exec_markPush_now (s : State) (off : Nat) (d : DeckNo) (raw : RawLabel) :
    exec (.markPush off d.val { alt := 1, label := raw }) s = dispatched s 0x31 off (s.part.pushNow d) := by
  show execMarkPush off d.val { alt := 1, label := raw } s = _
  simp only [execMarkPush, deckOf_val]

/-- The items of a popped mark in bytes: its position as a label, its deck and its origin (R75). -/
theorem markBytes_eq (c : Counting) (m : Mark) :
    markBytes c m = List.map (BitVec.ofNat 8)
      [(positionLabel c m.position).hh, (positionLabel c m.position).mm, (positionLabel c m.position).ss
        , (positionLabel c m.position).ff
        , (match (positionLabel c m.position).field with | .one => 0 | .two => 1) + (if c.drop then 8 else 0)
        , m.deck.val, match m.origin with | .g x => x.val | .host => 4] := by
  obtain ⟨position, deck, origin⟩ := m
  cases origin <;> rfl

/-- Settles O28: each command by the equation of its operation. -/
theorem markCommands : Obligations.MarkCommands := by
  refine ⟨?_, ?_⟩
  · intro s off d raw l normalised label pushed answer
    refine ⟨?_, fun valid => ?_, fun invalid => ?_⟩
    · rw [exec_markPush_label]
      simp only [Part.pushLabel, label, Part.pushMark_eq]
      rfl
    · rw [exec_markPush_now]
      simp only [Part.pushNow, valid, if_true, Part.pushMark_eq]
      rfl
    · rw [exec_markPush_now]
      simp only [Part.pushNow, invalid, Bool.false_eq_true, if_false]
      rfl
  · intro s off
    refine ⟨?_, fun empty => ?_, rfl⟩
    · intro m rest top popped l items answer
      show execMarkPop off s = _
      simp only [execMarkPop, top, markBytes_eq]
      rfl
    · show execMarkPop off s = _
      rw [execMarkPop, empty]
      rfl

/-! ### A record that goes stale (R62, R113) -/

theorem PosRec.stale_iff (r : PosRec) : r.stale = true ↔ r.valid = true ∧ 30 < r.age := by
  simp [PosRec.stale]

@[simp] theorem Part.loseStale_tapes (p : Part) (d : DeckNo) : (p.loseStale d).tapes = p.tapes := by
  unfold Part.loseStale
  split <;> simp

@[simp] theorem Part.positionStale_tapes (p : Part) (d : DeckNo) : (p.positionStale d).tapes = p.tapes := by
  unfold Part.positionStale
  split
  · exact Part.each_keeps Part.tapes _ (fun d q => q.loseStale_tapes d) _ _
  · exact p.loseStale_tapes d

theorem Part.judgeStale_of_stale {p : Part} {d : DeckNo} (h : (p.deck d).position.stale = true) :
    p.judgeStale d = (p.modDeck d fun k => { k with position := k.position.invalidated }).positionStale d := if_pos h

theorem Part.judgeStale_of_fresh {p : Part} {d : DeckNo} (h : (p.deck d).position.stale = false) : p.judgeStale d = p :=
  if_neg (by simp [h])

/-- The tapes after the judgement of a stale record: the record of the deck is invalid, and nothing else changes. -/
theorem Part.judgeStale_tapes {p : Part} {d : DeckNo} (h : (p.deck d).position.stale = true) :
    (p.judgeStale d).tapes = (p.modDeck d fun k => { k with position := k.position.invalidated }).tapes := by
  rw [Part.judgeStale_of_stale h, Part.positionStale_tapes]

/-- Settles O27. -/
theorem staleRecordInvalidated : Obligations.StaleRecordInvalidated := by
  intro s d r
  refine ⟨fun valid old => ⟨s.part.judgeStale d, rfl, ?_⟩, fun fresh => ?_⟩
  · have tapes := Part.judgeStale_tapes (r.stale_iff.2 ⟨valid, old⟩)
    have aside := s.part.judgeStale_aside d
    have position := Deck.position_of_undemanded (Part.undemanded_of_tapes tapes d)
    rw [Part.modDeck_deck_self] at position
    have tcu : (s.part.judgeStale d).tcu = s.part.tcu := (congrArg Prod.fst tapes :)
    exact ⟨position, Part.rtu_of_aside aside, tcu, Part.sius_of_aside aside, Part.gtu_of_aside aside⟩
  · have stays : r.stale = false := by
      rw [← Bool.not_eq_true, r.stale_iff]
      rintro ⟨valid, old⟩
      exact fresh.elim (by simp [valid]) (Nat.not_le.2 old)
    show ran s (s.part.judgeStale d) = _
    rw [Part.judgeStale_of_fresh stays]
    rfl

/-! ### TC_CONFIG (R70, R88, R130, R150) -/

@[simp] theorem preferenceOf_code (x : Preference) : preferenceOf x.code = some x := by cases x <;> rfl

theorem fourPreferences_eq (f : DeckNo → Preference) : fourPreferences (f 0) (f 1) (f 2) (f 3) = f := by
  funext d
  fin_cases d <;> rfl

theorem exec_tcConfig (s : State) (off : Nat) (df : Bool) (pref : DeckNo → Preference) :
    exec (.tcConfig off (switchCode df) (pref 0).code (pref 1).code (pref 2).code (pref 3).code) s
      = if s.part.eventActive then dispatched s 0x30 off (s.part, .busy)
        else dispatched s 0x30 off (s.part.configureTimecode df pref, .accepted) := by
  show execTcConfig off _ _ _ _ _ s = _
  simp only [execTcConfig, switchOf_code, preferenceOf_code, fourPreferences_eq]

/-- The preference of each deck is stored (R70). -/
theorem Part.setPreferences_deck (p : Part) (f : DeckNo → Preference) (d : DeckNo) :
    (p.setPreferences f).deck d
      = { p.deck d with position := { (p.deck d).position with preference := f d } } := by
  let stored (x : DeckNo × Deck) : DeckNo × Deck := (x.1, { x.2 with position := { x.2.position with preference := f x.1 } })
  have done := Part.each_at (fun d q => (d, q.deck d)) stored
    (f := fun d q => q.modDeck d fun k => { k with position := { k.position with preference := f d } })
    (fun _ _ q other => by rw [q.modDeck_deck_ne _ other]) (fun d q => by rw [q.modDeck_deck_self]) allDecks_nodup d p
  rw [if_pos (mem_allDecks d)] at done
  exact congrArg Prod.snd done

/-- Nothing but the deck records is touched. -/
theorem Part.setPreferences_frame (p : Part) (f : DeckNo → Preference) :
    p.setPreferences f = { p with decks := (p.setPreferences f).decks } :=
  Part.each_stays (P := fun q => q = { p with decks := q.decks })
    (fun _ q same => by rw [Part.modDeck, same]) allDecks rfl

/-- The parts of a change of DF_MODE. -/
theorem Part.changeDfMode_eq (p : Part) (df : Bool) :
    p.changeDfMode df = { p with
      tcu := { p.tcu with dfMode := df, marks := [] }
      decks := p.decks.map Deck.countingChanged
      eds := { p.eds with slots := (p.eds.slots.map Slot.disarmed).map Slot.withoutCounts } } := rfl

/-- A deck record after a change of counting: its position lost, and no CUE_TO of the counting before left (R70, R88). -/
theorem Deck.countingChanged_eq (k : Deck) :
    k.countingChanged = { k with
      position := { k.position with
        position := 0, valid := false, source := .estimate, age := 255, acc := 0, vitcAge := 255, deckAge := 255 }
      sent := match k.sent with | .cueTo _ => .unknown | x => x
      direct := k.direct.filter fun x => x.command != .cueTo } := by
  have dropped : k.countingChanged.direct = k.direct.filter fun x => x.command != .cueTo := by
    unfold Deck.countingChanged
    cases k.direct with
    | none => rfl
    | some x => by_cases cue : x.command = .cueTo <;> simp [Option.filter, cue]
  rw [← dropped]
  rfl

/-- A slot that is disarmed and left without counts (R130, R150). -/
theorem Slot.disarmed_withoutCounts (s : Slot) :
    s.disarmed.withoutCounts = { s with
      state := if s.state = .armed then .loaded else s.state
      arm := none, run := { s.run with recordOn := none, recordOff := none } } := by
  rw [s.disarmed_eq]
  split <;> rfl

/-- Settles O26. -/
theorem timecodeConfigured : Obligations.TimecodeConfigured := by
  intro s off df pref sent
  have answers := exec_tcConfig s off df pref
  refine ⟨fun active => ?_, fun idle => ?_⟩
  · exact answers.trans (if_pos (Option.isSome_iff_ne_none.2 active))
  · replace answers := answers.trans (if_neg (by simp [Part.eventActive, idle]))
    have frame := s.part.setPreferences_frame pref
    have deck := s.part.setPreferences_deck pref
    by_cases same : df = s.part.tcu.dfMode
    · rw [Part.configureTimecode, if_pos same] at answers
      have tcu : (s.part.setPreferences pref).tcu = s.part.tcu := by rw [frame]
      exact ⟨_, answers, by rw [tcu, same], fun d => by rw [deck], fun _ => ⟨frame, deck⟩, fun other => absurd same other⟩
    · rw [Part.configureTimecode, if_neg same, Part.changeDfMode_eq] at answers
      have changed (d : DeckNo) : ((s.part.setPreferences pref).decks.map Deck.countingChanged).get d = _ :=
        (Table.get_map _ _ d).trans ((congrArg Deck.countingChanged (deck d)).trans (Deck.countingChanged_eq _))
      refine ⟨_, answers, rfl, fun d => congrArg (·.position.preference) (changed d), fun unchanged => absurd unchanged same,
        fun _ => ⟨?_, changed, fun n => ?_, ?_⟩⟩
      · rw [frame]
      · refine ((Table.get_map _ _ n).trans (congrArg _ (Table.get_map _ _ n))).trans (Eq.trans ?_ (Slot.disarmed_withoutCounts _))
        rw [frame]
        rfl
      · rw [frame]

end Sys2Proof.Machine
end

section
/-! ## Laws: what an event steers

The moves of the Edit Sequencer and of the chase write the demands, the chase items, the last-sent transport and the direct
command of a deck, the direct hold and the track set of its port, the notices of events, and they take marks off the stack.
Nothing else beside the engine, the chase unit and the mixer changes: one lemma per operation, in the order of the model's
definitions, each from a part already steered to. -/

namespace Sys2Proof.Machine

open Sys2Proof

/-- A deck record without what an event writes into it. -/
def Deck.unled (k : Deck) : Deck := { k.undemanded with direct := none, sent := .unknown }

/-- A port without what an event writes into it. -/
def Port.unled (q : Port) : Port := { q with directHold := false, tracks := 0 }

/-- The notices that the moves of an event set (Table 2-3). -/
def Notice.ofEvents : Notice → Bool
  | .holdWaiting | .eventDone | .eventFailed | .listEnd | .guardTrip => true
  | _ => false

/-- From `p` to `q` there are only moves of events and chases. -/
structure Part.Steers (p q : Part) : Prop where
  aside : q.aside = p.aside
  dfMode : q.tcu.dfMode = p.tcu.dfMode
  settled : q.tcu.settled = p.tcu.settled
  marks : q.tcu.marks <:+ p.tcu.marks
  deck : ∀ d, (q.deck d).unled = (p.deck d).unled
  port : ∀ d, (q.port d).unled = (p.port d).unled
  notice : ∀ m, m.ofEvents = false → q.noticeSet m = p.noticeSet m

namespace Part.Steers

variable {p q r : Part}

theorem refl (p : Part) : p.Steers p := ⟨rfl, rfl, rfl, List.suffix_refl _, fun _ => rfl, fun _ => rfl, fun _ _ => rfl⟩

theorem trans (h : p.Steers q) (k : q.Steers r) : p.Steers r where
  aside := k.aside.trans h.aside
  dfMode := k.dfMode.trans h.dfMode
  settled := k.settled.trans h.settled
  marks := k.marks.trans h.marks
  deck d := (k.deck d).trans (h.deck d)
  port d := (k.port d).trans (h.port d)
  notice m other := (k.notice m other).trans (h.notice m other)

/-! ### What is kept, by name -/

theorem rtu (h : p.Steers q) : q.rtu = p.rtu := Part.rtu_of_aside h.aside
theorem sius (h : p.Steers q) : q.sius = p.sius := Part.sius_of_aside h.aside
theorem gtu (h : p.Steers q) : q.gtu = p.gtu := Part.gtu_of_aside h.aside
theorem counting (h : p.Steers q) : q.counting = p.counting := by rw [Part.counting, h.rtu, h.dfMode, Part.counting]
theorem role (h : p.Steers q) (d : DeckNo) : (q.deck d).role = (p.deck d).role := (congrArg Deck.role (h.deck d) :)
theorem position (h : p.Steers q) (d : DeckNo) : (q.deck d).position = (p.deck d).position :=
  (congrArg Deck.position (h.deck d) :)
theorem line (h : p.Steers q) (d : DeckNo) : (q.deck d).line = (p.deck d).line := (congrArg Deck.line (h.deck d) :)
theorem flight (h : p.Steers q) (d : DeckNo) : (q.port d).flight = (p.port d).flight := (congrArg Port.flight (h.port d) :)

theorem recorder (h : p.Steers q) : q.recorder = p.recorder := by
  simp only [Part.recorder, h.role]

/-! ### Updates -/

section
variable (h : p.Steers q)
include h

theorem ite {c : Prop} [Decidable c] (k : p.Steers r) : p.Steers (if c then q else r) := by
  split
  · exact h
  · exact k

theorem modDeck (d : DeckNo) (f : Deck → Deck) (same : ∀ k, (f k).unled = k.unled) : p.Steers (q.modDeck d f) where
  aside := h.aside
  dfMode := h.dfMode
  settled := h.settled
  marks := h.marks
  deck e := (Table.get_eq_of_map_eq (Table.map_modify Deck.unled q.decks d f same) e).trans (h.deck e)
  port := h.port
  notice := h.notice

theorem modPort (d : DeckNo) (f : Port → Port) (same : ∀ k, (f k).unled = k.unled) : p.Steers (q.modPort d f) where
  aside := h.aside
  dfMode := h.dfMode
  settled := h.settled
  marks := h.marks
  deck := h.deck
  port e := (Table.get_eq_of_map_eq (Table.map_modify Port.unled q.ports d f same) e).trans (h.port e)
  notice := h.notice

theorem modChase (d : DeckNo) (f : ChaseOwn → ChaseOwn) : p.Steers (q.modChase d f) := { h with }
theorem modEds (f : Eds → Eds) : p.Steers (q.modEds f) := { h with }
theorem modSlot (n : SlotNo) (f : Slot → Slot) : p.Steers (q.modSlot n f) := { h with }
theorem modMep (f : Mep → Mep) : p.Steers (q.modMep f) := { h with }
theorem setSyncWatch (b : Bool) : p.Steers (q.setSyncWatch b) := { h with }

theorem raise (n : Notice) (own : n.ofEvents = true) : p.Steers (q.raise n) where
  aside := h.aside
  dfMode := h.dfMode
  settled := h.settled
  marks := h.marks
  deck := h.deck
  port := h.port
  notice m other := by
    have differs : m ≠ n := by
      rintro rfl
      simp [own] at other
    rw [q.raise_noticeSet_ne differs, h.notice m other]

/-- Marks come off the stack from the top. -/
theorem popMarks (marks : List Mark) (fewer : marks <:+ q.tcu.marks) :
    p.Steers (q.modTcu fun t => { t with marks := marks }) :=
  { h with marks := fewer.trans h.marks }

theorem each (ds : List DeckNo) (f : DeckNo → Part → Part) (kept : ∀ d r, p.Steers r → p.Steers (f d r)) :
    p.Steers (q.each ds f) :=
  Part.each_stays kept ds h

/-! ### Demands (R101, R102) -/

theorem wantTransport (d : DeckNo) (w : Want) : p.Steers (q.wantTransport d w) :=
  (h.modDeck d (fun k => { k with want := w }) fun _ => rfl).modPort d _ fun _ => rfl

theorem wantTransportResent (d : DeckNo) (w : Want) : p.Steers (q.wantTransportResent d w) :=
  (h.wantTransport d w).modDeck d _ fun _ => rfl

theorem wantRecordOn (d : DeckNo) (tracks : BitVec 4) : p.Steers (q.wantRecordOn d tracks) :=
  (h.modDeck d (fun k => { k with wantRecord := true }) fun _ => rfl).modPort d _ fun _ => rfl

theorem wantRecordOff (d : DeckNo) : p.Steers (q.wantRecordOff d) := h.modDeck d _ fun _ => rfl
theorem wantSpeed (d : DeckNo) (v : Int) : p.Steers (q.wantSpeed d v) := h.modDeck d _ fun _ => rfl
theorem dropDirect (d : DeckNo) : p.Steers (q.dropDirect d) := h.modDeck d _ fun _ => rfl

/-! ### Chases started and stopped (R106, R107) -/

theorem chaseStart (d : DeckNo) (a b : Nat) : p.Steers (q.chaseStart d a b) :=
  ((h.modDeck d (fun k => { k with chase := { ChaseItems.stopped with state := .pullIn } }) fun _ => rfl).modChase d _).wantSpeed
    d 256

theorem chaseStop (d : DeckNo) : p.Steers (q.chaseStop d) :=
  (((h.modDeck d (fun k => { k with chase := .stopped }) fun _ => rfl).modChase d _).wantSpeed d 256).setSyncWatch false

theorem chaseStopAll : p.Steers q.chaseStopAll := h.each _ _ fun d _ k => (k.chaseStop d).ite k

/-! ### How an event ends (R132, R145, R147, R148, R151) -/

theorem enterIdle (keepLatch : Bool) : p.Steers (q.enterIdle keepLatch) := h.modEds _
theorem endList : p.Steers q.endList := (h.raise .listEnd rfl).enterIdle false
theorem stopGuard : p.Steers q.stopGuard := h.modEds _
theorem stillAll : p.Steers q.stillAll := h.each _ _ fun d _ k => k.wantTransport d .still

theorem recordOff : p.Steers q.recordOff := by
  unfold Part.recordOff
  split
  · exact h.wantRecordOff _
  · exact h

theorem closeSlot (st : SlotState) (why : Reason) : p.Steers (q.closeSlot st why) := by
  unfold Part.closeSlot
  split
  · exact h.modSlot _ _
  · exact h

theorem closeEvent (st : SlotState) (why : Reason) : p.Steers (q.closeEvent st why) :=
  (((h.recordOff.stillAll.setSyncWatch false).chaseStopAll).modMep _).closeSlot st why

theorem disarmAll : p.Steers q.disarmAll := h.modEds _

theorem failEvent (why : Reason) : p.Steers (q.failEvent why) :=
  ((h.closeEvent .failed why).raise .eventFailed rfl).disarmAll.endList.ite h

theorem abortEvent (why : Reason) : p.Steers (q.abortEvent why) := (h.closeEvent .aborted why).endList.ite h

theorem resetEngine : p.Steers q.resetEngine := ((h.closeEvent .aborted .engineReset).ite h).disarmAll.enterIdle false

/-! ### How an event starts and how the cursor goes on (R134, R145) -/

theorem setCue (d : DeckNo) (c : CueRecord) : p.Steers (q.setCue d c) := h.modEds _
theorem setCursor (n : SlotNo) : p.Steers (q.setCursor n) := h.modEds _

theorem giveCue (a : ArmResults) (d : DeckNo) : p.Steers (q.giveCue a d) := by
  unfold Part.giveCue
  split
  · exact (h.wantTransportResent d _).setCue d _
  · exact h

theorem activate (n : SlotNo) (a : ArmResults) : p.Steers (q.activate n a) :=
  ((h.modSlot n _).modEds _).each _ _ fun d _ k => k.dropDirect d

theorem startEvent (n : SlotNo) : p.Steers (q.startEvent n) := by
  unfold Part.startEvent
  split
  · exact h
  · next a _ =>
    dsimp only
    split
    · exact (h.activate n a).failEvent _
    · exact (h.activate n a).each _ _ fun d _ k => k.giveCue a d

/-- An arm validation takes at most the mark on top (R126). -/
theorem armEvent (n : SlotNo) (e : EventRecord) : p.Steers (q.armEvent n e).1 := by
  have fewer : (q.validateArm e).marks <:+ q.tcu.marks := by
    rcases q.validateArm_marks e with same | popped
    · exact same ▸ List.suffix_refl _
    · exact popped ▸ List.tail_suffix _
  unfold Part.armEvent
  dsimp only
  split
  · exact h.popMarks _ fewer
  · exact (h.popMarks _ fewer).modSlot n _

theorem armSlot (n : SlotNo) : p.Steers (q.armSlot n).1 := by
  unfold Part.armSlot
  split
  · exact h
  · exact h
  · exact h
  · exact h
  · exact h.armEvent n _

omit h in
theorem cursorArrives (fuel : Nat) (m : Nat) {q : Part} (h : p.Steers q) : p.Steers (cursorArrives fuel m q) := by
  induction fuel generalizing m q with
  | zero => exact (h.setCursor 63).endList
  | succ fuel ih =>
    unfold Machine.cursorArrives
    split
    · exact (h.setCursor 63).endList
    · next k _ =>
      split
      · exact ih _ h
      · exact h.startEvent k
      · have armed := h.armSlot k
        split
        next r a slot =>
        rw [slot] at armed
        exact (armed.startEvent k).ite (armed.setCursor k).endList

theorem moveOn (n : SlotNo) : p.Steers (q.moveOn n) :=
  (h.setCursor (nextSlot n)).endList.ite (cursorArrives 64 _ (h.enterIdle true))

theorem endPostroll : p.Steers q.endPostroll := by
  unfold Part.endPostroll
  split
  · exact h
  · exact (((h.stillAll.chaseStopAll.modMep _).closeSlot .done .noReason).raise .eventDone rfl).moveOn _

theorem enterPostroll : p.Steers q.enterPostroll := by
  unfold Part.enterPostroll
  split
  · exact h
  · exact ((((h.setSyncWatch false).stopGuard).modEds _).endPostroll).ite (((h.setSyncWatch false).stopGuard).modEds _)

/-! ### Roll, hold and cue (R135 to R140) -/

theorem enterRoll : p.Steers q.enterRoll := by
  unfold Part.enterRoll
  split
  · exact h
  · exact (h.modMep _).modEds _

theorem rollPlay (d : DeckNo) : p.Steers (q.rollPlay d) := by
  have played := h.wantTransport d .play
  unfold Part.rollPlay
  refine ite (ite played ?_) h
  split
  · split
    · exact played.chaseStart d _ _
    · exact played
  · exact played

theorem enterHold : p.Steers q.enterHold :=
  (h.modEds _).enterRoll.ite ((h.stillAll.modEds _).raise .holdWaiting rfl)

theorem leaveCue : p.Steers q.leaveCue := by
  unfold Part.leaveCue
  refine ite ?_ h
  split
  · exact h.enterHold.ite h.enterRoll
  · exact h

theorem leaveHold : p.Steers q.leaveHold := (h.modEds _).enterRoll.ite h

theorem takeRelease : p.Steers q.takeRelease := (h.modEds _).leaveHold

theorem judgeCue (d : DeckNo) (point : Nat) (c : CueRecord) : p.Steers (q.judgeCue d point c) :=
  ((h.setCue d _).leaveCue.ite (((h.wantTransportResent d _).setCue d _).ite (h.failEvent .cueMiss))).ite (h.setCue d c)

theorem cueReport (d : DeckNo) (f : Frame) (refused : Bool) : p.Steers (q.cueReport d f refused) := by
  unfold Part.cueReport
  split
  · split
    · exact h
    · split
      · exact h
      · exact h.judgeCue d _ _
      · exact (h.judgeCue d _ _).ite h
  · exact h

theorem judgeCueTimer (d : DeckNo) : p.Steers (q.judgeCueTimer d) := (h.failEvent .cueTimeout).ite h

theorem tickCueTimers : p.Steers q.tickCueTimers :=
  ((h.modEds _).each allDecks _ fun d _ k => k.judgeCueTimer d).ite h

/-! ### The record span (R141 to R144) -/

theorem decideRecordOn (d : DeckNo) (e : EventRecord) : p.Steers (q.decideRecordOn d e) := by
  unfold Part.decideRecordOn
  split
  · exact h.failEvent _
  · exact (((h.wantRecordOn d _).ite h).modEds _).setSyncWatch true

theorem writeTransition (position : Nat) (e : EventRecord) (a : ArmResults) : p.Steers (q.writeTransition position e a) :=
  { h with }

theorem spanPoints (d : DeckNo) (position : Nat) (e : EventRecord) : p.Steers (q.spanPoints d position e) := by
  unfold Part.spanPoints
  split
  · exact h
  · exact ite (ite (h.wantRecordOff d) h).enterPostroll (ite (h.wantRecordOff d) h)

theorem recorderAdvanced (d : DeckNo) : p.Steers (q.recorderAdvanced d) := by
  unfold Part.recorderAdvanced
  split
  · next e a _ _ =>
    extract_lets position decided
    have decides : p.Steers decided := (h.decideRecordOn d e).ite h
    split
    · exact (decides.writeTransition _ _ _).spanPoints d _ _
    · exact decides.writeTransition _ _ _
    · exact decides
  · exact h

theorem endOpenEvent : p.Steers q.endOpenEvent := by
  unfold Part.endOpenEvent
  split
  · exact ((h.modEds _).wantRecordOff _).ite (h.modEds _)
  · exact h

theorem takeTrigger : p.Steers q.takeTrigger := h.endOpenEvent.ite h.takeRelease

theorem recordReport (d : DeckNo) (f : Frame) (refused : Bool) (label : RawLabel) :
    p.Steers (q.recordReport d f refused label) := by
  unfold Part.recordReport
  split
  · exact h
  · refine ite ?_ h
    split
    · exact h.modSlot _ _
    · exact h.modSlot _ _
    · exact (h.failEvent _).ite h
    · exact h

theorem deckReported (d : DeckNo) (f : Frame) (refused : Bool) (label : RawLabel) :
    p.Steers (q.deckReported d f refused label) :=
  (h.cueReport d f refused).recordReport d f refused label

theorem tickPostroll : p.Steers q.tickPostroll := ((h.modEds _).endPostroll.ite (h.modEds _)).ite h

/-! ### Signals that fail an event, the guard, all-stop (R146, R148 to R150) -/

theorem lineChanged (d : DeckNo) : p.Steers (q.lineChanged d) := by
  unfold Part.lineChanged
  refine ite ?_ h
  split
  · exact h.failEvent _
  · exact h

theorem chaseLost (why : Reason) : p.Steers (q.chaseLost why) := (h.failEvent why).ite h
theorem syncLost : p.Steers q.syncLost := (h.failEvent .syncLost).ite h
theorem tripGuard : p.Steers q.tripGuard := (h.raise .guardTrip rfl).failEvent .refLost
theorem judgeGuard : p.Steers q.judgeGuard := h.tripGuard.ite h
theorem tickGuard : p.Steers q.tickGuard := (h.modEds _).judgeGuard.ite h

theorem lockLeft : p.Steers q.lockLeft := by
  unfold Part.lockLeft
  split
  · exact h.failEvent _
  · exact (h.modEds _).judgeGuard
  · exact h

theorem lockEntered (jump : Bool) : p.Steers (q.lockEntered jump) := by
  unfold Part.lockEntered
  extract_lets guarded
  have guards : p.Steers guarded := (h.tripGuard.ite h.stopGuard).ite h
  split
  · exact guards.leaveCue
  · exact guards.leaveHold
  · exact guards

theorem edsStandardChange : p.Steers q.edsStandardChange := { h.failEvent .standardChange with }
theorem edsCountingChange : p.Steers q.edsCountingChange := { h with }

theorem portAllStop (d : DeckNo) : p.Steers (q.portAllStop d) := by
  unfold Part.portAllStop
  split
  · exact h
  · exact (h.dropDirect d).wantTransport d .stop
  · exact ((h.dropDirect d).wantTransport d .stop).wantRecordOff d

theorem allStop : p.Steers q.allStop := (h.abortEvent .allStop).each _ _ fun d _ k => k.portAllStop d

/-! ### The chase (R108 to R115) and the advance signal (R63) -/

theorem loseChase (d : DeckNo) (e : Int) (why : Reason) : p.Steers (q.loseChase d e why) :=
  (h.modDeck d (fun k => { k with chase := { k.chase with state := .lost, error := e, lockCount := 0 } }) fun _ => rfl).chaseLost
    why

theorem computeWith (d e : DeckNo) : p.Steers (q.computeWith d e) := by
  unfold Part.computeWith
  extract_lets own error speed judged
  have judges : p.Steers judged := wantSpeed (modDeck h d _ (by exact fun _ => rfl)) d speed
  exact (h.loseChase d _ _).ite (judges.syncLost.ite judges)

theorem compute (d : DeckNo) : p.Steers (q.compute d) := by
  unfold Part.compute
  split
  · exact h
  · exact (h.computeWith d _).ite h

theorem positionMeasured (d : DeckNo) : p.Steers (q.positionMeasured d) := ((h.modChase d _).ite (h.compute d)).ite h

theorem computeHeld (d : DeckNo) : p.Steers (q.computeHeld d) :=
  (((h.modChase d _).compute d).ite (h.modChase d _)).ite h

theorem loseStale (d : DeckNo) : p.Steers (q.loseStale d) := (h.loseChase d _ _).ite h

theorem positionStale (d : DeckNo) : p.Steers (q.positionStale d) :=
  (h.each _ _ fun e _ k => k.loseStale e).ite (h.loseStale d)

theorem signalAdvance (d : DeckNo) : p.Steers (q.signalAdvance d) := (h.recorderAdvanced d).ite h

end

end Part.Steers

end Sys2Proof.Machine
end

section
/-! ## The tapes under a field start (O30)

Whatever order the work is asked for, each record makes its field start step once, and nothing else moves a tape. -/

namespace Sys2Proof.Machine

open Sys2Proof

/-! ### The step of one record (R61, R62) -/

/-- Step 4 of R62 at a record. -/
def PosRec.judged (r : PosRec) : PosRec := if r.stale then r.invalidated else r

theorem PosRec.judged_eq (r : PosRec) :
    r.judged = if r.valid = true ∧ 30 < r.age then { r with valid := false, source := .estimate } else r := by
  simp only [PosRec.judged, r.stale_iff]
  rfl

theorem PosRec.advanced_shuttle (r : PosRec) (day : Nat) {t : Transport} (h : isShuttle t = true) (speed : Int) :
    r.advanced day t speed = { (r.agedWith (motionOf t speed)).invalidated with acc := 0 } := if_pos h

theorem PosRec.advanced_valid {r : PosRec} (valid : r.valid = true) (day : Nat) {t : Transport} (h : isShuttle t = false)
    (speed : Int) : r.advanced day t speed = (r.agedWith (motionOf t speed)).stepped day (motionOf t speed) :=
  (if_neg (by simp [h])).trans (if_pos valid)

theorem PosRec.advanced_invalid {r : PosRec} (invalid : r.valid = false) (day : Nat) {t : Transport} (h : isShuttle t = false)
    (speed : Int) : r.advanced day t speed = r.agedWith (motionOf t speed) :=
  (if_neg (by simp [h])).trans (if_neg (show ¬ r.valid = true by simp [invalid]))

/-- The ages count up to 255 and the motion is taken, whatever becomes of the position. -/
theorem PosRec.advanced_ages (r : PosRec) (day : Nat) (t : Transport) (speed : Int) :
    (r.advanced day t speed).motion = motionOf t speed ∧ (r.advanced day t speed).age = min 255 (r.age + 1)
    ∧ (r.advanced day t speed).vitcAge = min 255 (r.vitcAge + 1)
    ∧ (r.advanced day t speed).deckAge = min 255 (r.deckAge + 1) := by
  unfold PosRec.advanced
  dsimp only
  split
  · exact ⟨rfl, rfl, rfl, rfl⟩
  · split <;> exact ⟨rfl, rfl, rfl, rfl⟩

theorem isShuttle_iff (t : Transport) : isShuttle t = true ↔ t = .fastFwd ∨ t = .rewind := by
  cases t <;> simp [isShuttle]

/-- A moved position as an integer. -/
theorem moved_eq {day : Nat} (h : 0 < day) (position : Nat) (amount : Int) :
    (moved day position amount : Int) = (position + amount.fdiv 256) % day := by
  rw [moved, Int.fdiv_eq_ediv_of_nonneg _ (by decide), Int.toNat_of_nonneg (Int.emod_nonneg _ (by omega))]

/-! ### The step as FIELD_START makes it (R62, R63) -/

/-- A deck record whose tape has made its field start step. -/
def Deck.wound (c : Counting) (k : Deck) : Deck :=
  { k with position := (k.position.advanced c.day k.transport k.speed).judged }

/-- A change of one deck record is what it does to that record. -/
theorem Part.modDeck_congr {p : Part} {d : DeckNo} {f g : Deck → Deck} (h : f (p.deck d) = g (p.deck d)) :
    p.modDeck d f = p.modDeck d g := by
  show { p with decks := p.decks.set d (f (p.deck d)) } = _
  rw [h]
  rfl

theorem Part.modDeck_modDeck (p : Part) (d : DeckNo) (f g : Deck → Deck) :
    (p.modDeck d f).modDeck d g = p.modDeck d fun k => g (f k) := by
  have decks : (p.decks.modify d f).modify d g = p.decks.modify d fun k => g (f k) := by
    refine Table.ext_get fun e => ?_
    by_cases same : e = d
    · subst same
      simp
    · simp [Table.get_modify_ne _ _ same]
  exact congrArg (fun t : Table Deck 4 => { p with decks := t }) decks

/-- The field start step writes the position record of its deck; an invalidation may steer the event. -/
theorem Part.advanceRecord_steers (p : Part) (d : DeckNo) :
    (p.modDeck d (·.wound p.counting)).Steers (p.advanceRecord d) := by
  let step (k : Deck) : Deck := { k with position := k.position.advanced p.counting.day k.transport k.speed }
  have stepped : p.advanceRecord d = (p.modDeck d step).judgeStale d :=
    congrArg (Part.judgeStale · d) (Part.modDeck_congr rfl)
  have own : (p.modDeck d step).deck d = step (p.deck d) := p.modDeck_deck_self d _
  rw [stepped]
  by_cases stale : (step (p.deck d)).position.stale = true
  · have same : p.modDeck d (·.wound p.counting)
        = (p.modDeck d step).modDeck d fun k => { k with position := k.position.invalidated } := by
      rw [p.modDeck_modDeck]
      exact Part.modDeck_congr (congrArg (fun r => { p.deck d with position := r }) (if_pos stale))
    rw [Part.judgeStale_of_stale (own ▸ stale), same]
    exact (Part.Steers.refl _).positionStale d
  · have same : p.modDeck d (·.wound p.counting) = p.modDeck d step :=
      Part.modDeck_congr (congrArg (fun r => { p.deck d with position := r }) (if_neg stale))
    rw [Part.judgeStale_of_fresh (own ▸ Bool.eq_false_iff.2 stale), same]
    exact .refl _

/-! ### What leaves every tape where it is -/

/-- From `p` to `q` no tape moves, nor does the RTU or the counting. -/
structure Part.Holds (p q : Part) : Prop where
  rtu : q.rtu = p.rtu
  counting : q.counting = p.counting
  deck : ∀ d, (q.deck d).unled = (p.deck d).unled

theorem Part.Holds.refl (p : Part) : p.Holds p := ⟨rfl, rfl, fun _ => rfl⟩

theorem Part.Holds.trans {p q r : Part} (h : p.Holds q) (k : q.Holds r) : p.Holds r :=
  ⟨k.rtu.trans h.rtu, k.counting.trans h.counting, fun d => (k.deck d).trans (h.deck d)⟩

theorem Part.Steers.holds {p q : Part} (h : p.Steers q) : p.Holds q := ⟨h.rtu, h.counting, h.deck⟩

theorem Part.pushMark_holds (p : Part) (m : Mark) : p.Holds (p.pushMark m) := by
  rw [p.pushMark_eq]
  exact ⟨rfl, rfl, fun _ => rfl⟩

theorem Part.capture_holds (p : Part) (d : DeckNo) (g : Fin 4) : p.Holds (p.capture d g) := by
  unfold Part.capture
  split
  · exact p.pushMark_holds _
  · exact ⟨rfl, rfl, fun _ => rfl⟩

theorem FieldCtx.handEdge_holds (x : FieldCtx) (g : Gpi) (n : Fin 4) : x.part.Holds (x.handEdge g n).part := by
  unfold FieldCtx.handEdge
  split
  · exact .refl _
  · split
    · exact x.part.capture_holds _ _
    · exact .refl _
  · exact (Part.Steers.refl x.part).takeTrigger.holds
  · exact (Part.Steers.refl x.part).allStop.holds

theorem FieldCtx.judgeEdge_holds (x : FieldCtx) (n : Fin 4) : x.part.Holds (x.judgeEdge n).part := by
  unfold FieldCtx.judgeEdge
  extract_lets g x'
  have accepts : x.part.Holds x'.part := ⟨rfl, rfl, fun _ => rfl⟩
  split
  · split
    · exact accepts.trans (x'.handEdge_holds g n)
    · exact accepts
  · exact .refl _

theorem FieldCtx.releaseHeld_holds (x : FieldCtx) (d : DeckNo) : x.part.Holds (x.releaseHeld d).part := by
  unfold FieldCtx.releaseHeld
  dsimp only
  generalize x.part = p
  induction x.held.filter (fun h => h.1 == d) generalizing p with
  | nil => exact .refl p
  | cons h hs ih => exact (p.capture_holds _ _).trans (ih _)

theorem FieldCtx.react_holds (x : FieldCtx) (d : DeckNo) (r : Reaction) : x.part.Holds (x.react d r).part := by
  cases r with
  | sequencer => exact ((Part.Steers.refl x.part).signalAdvance d).holds
  | captures => exact x.releaseHeld_holds d
  | chase e =>
    simp only [FieldCtx.react, FieldCtx.computeReady]
    split
    · exact ((Part.Steers.refl x.part).computeHeld e).holds
    · exact .refl _

theorem FieldCtx.reacts_holds (d : DeckNo) (rs : List Reaction) (x : FieldCtx) :
    x.part.Holds (rs.foldl (fun y r => y.react d r) x).part := by
  induction rs generalizing x with
  | nil => exact .refl _
  | cons r rs ih => exact (x.react_holds d r).trans (ih _)

/-- Beside the advances no piece of work moves a tape. -/
theorem FieldCtx.work_holds (began : Phase) (x : FieldCtx) (w : FieldWork) (h : advances w = none) :
    x.part.Holds (x.work began w).part := by
  have start := Part.Steers.refl x.part
  cases w with
  | advance d first => simp [advances] at h
  | cueTimers =>
    simp only [FieldCtx.work]
    split
    · exact start.tickCueTimers.holds
    · exact .refl _
  | rollPlays => exact (start.each _ _ fun d _ k => k.rollPlay d).holds
  | postroll =>
    simp only [FieldCtx.work]
    split
    · exact start.tickPostroll.holds
    · exact .refl _
  | guard => exact start.tickGuard.holds
  | autoTake => exact (start.modMep _).holds
  | gpi n =>
    let sampled (u : Gtu) : Gtu := { u with gpis := u.gpis.modify n (·.sampled (x.part.gtu.pins.getLsbD n.val)) }
    have samples : x.part.Holds (x.part.modGtu sampled) := ⟨rfl, rfl, fun _ => rfl⟩
    exact samples.trans (FieldCtx.judgeEdge_holds { x with part := x.part.modGtu sampled } n)

/-! ### Which decks have been advanced -/

theorem FieldCtx.judgeEdge_advanced (x : FieldCtx) (n : Fin 4) : (x.judgeEdge n).advanced = x.advanced := by
  unfold FieldCtx.judgeEdge FieldCtx.handEdge
  dsimp only
  (repeat' split) <;> rfl

theorem FieldCtx.react_advanced (x : FieldCtx) (d : DeckNo) (r : Reaction) : (x.react d r).advanced = x.advanced := by
  cases r with
  | sequencer | captures => rfl
  | chase e =>
    simp only [FieldCtx.react, FieldCtx.computeReady]
    split <;> rfl

theorem FieldCtx.reacts_advanced (d : DeckNo) (rs : List Reaction) (x : FieldCtx) :
    (rs.foldl (fun y r => y.react d r) x).advanced = x.advanced := by
  induction rs generalizing x with
  | nil => rfl
  | cons r rs ih => exact (ih _).trans (x.react_advanced d r)

theorem FieldCtx.work_advanced (began : Phase) (x : FieldCtx) (w : FieldWork) :
    (x.work began w).advanced = (advances w).toList ++ x.advanced := by
  cases w with
  | advance d first => exact FieldCtx.reacts_advanced d _ _
  | cueTimers | postroll =>
    simp only [FieldCtx.work]
    split <;> rfl
  | rollPlays | guard | autoTake => rfl
  | gpi n => exact FieldCtx.judgeEdge_advanced _ n

/-! ### Every tape moves once -/

/-- The tapes stand where the work has brought them from those of `b`: wound by one step where the deck was advanced. -/
structure FieldCtx.Tracks (b : Part) (x : FieldCtx) : Prop where
  rtu : x.part.rtu = b.rtu
  counting : x.part.counting = b.counting
  deck : ∀ d, (x.part.deck d).unled = (if d ∈ x.advanced then (b.deck d).wound b.counting else b.deck d).unled

theorem FieldCtx.Tracks.start (b : Part) : FieldCtx.Tracks b { part := b, advanced := [], held := [] } :=
  ⟨rfl, rfl, fun _ => by simp⟩

theorem FieldCtx.Tracks.holds {b : Part} {x y : FieldCtx} (h : x.Tracks b) (k : x.part.Holds y.part)
    (advanced : y.advanced = x.advanced) : y.Tracks b :=
  ⟨k.rtu.trans h.rtu, k.counting.trans h.counting, fun d => by rw [k.deck, h.deck, advanced]⟩

/-- The tape of a deck that is advanced for the first time. -/
theorem FieldCtx.Tracks.advance {b : Part} {x : FieldCtx} (h : x.Tracks b) {d : DeckNo} (fresh : d ∉ x.advanced) :
    FieldCtx.Tracks b { x with part := x.part.advanceRecord d, advanced := d :: x.advanced } := by
  have steered := x.part.advanceRecord_steers d
  refine ⟨steered.rtu.trans h.rtu, steered.counting.trans h.counting, fun e => (steered.deck e).trans ?_⟩
  by_cases same : e = d
  · subst same
    have before := h.deck e
    rw [if_neg fresh] at before
    rw [Part.modDeck_deck_self, if_pos List.mem_cons_self, h.counting]
    exact congrArg (Deck.wound b.counting) before
  · rw [Part.modDeck_deck_ne _ _ same, h.deck]
    simp [same]

theorem FieldCtx.Tracks.work {b : Part} {x : FieldCtx} (h : x.Tracks b) (began : Phase) (w : FieldWork)
    (fresh : ∀ d, advances w = some d → d ∉ x.advanced) : (x.work began w).Tracks b := by
  cases advance : advances w with
  | none => exact h.holds (x.work_holds began w advance) (by rw [x.work_advanced, advance]; rfl)
  | some d =>
    cases w with
    | advance e first =>
      obtain rfl : e = d := by simpa [advances] using advance
      exact (h.advance (fresh e advance)).holds (FieldCtx.reacts_holds e _ _) (FieldCtx.reacts_advanced e _ _)
    | _ => simp [advances] at advance

theorem advancedBy_cons (w : FieldWork) (ws : List FieldWork) :
    advancedBy (w :: ws) = (advances w).toList ++ advancedBy ws := by
  rw [advancedBy, List.filterMap_cons]
  cases advances w <;> rfl

/-- Work of which each piece is done once moves each tape that it advances once. -/
theorem FieldCtx.Tracks.works {b : Part} (began : Phase) (ws : List FieldWork) {x : FieldCtx} (h : x.Tracks b)
    (nodup : (advancedBy ws).Nodup) (fresh : ∀ d ∈ advancedBy ws, d ∉ x.advanced) :
    (ws.foldl (FieldCtx.work began) x).Tracks b
    ∧ ∀ d, d ∈ x.advanced ∨ d ∈ advancedBy ws → d ∈ (ws.foldl (FieldCtx.work began) x).advanced := by
  induction ws generalizing x with
  | nil => exact ⟨h, fun d => by simp [advancedBy]⟩
  | cons w ws ih =>
    rw [advancedBy_cons] at nodup fresh ⊢
    obtain ⟨-, later, apart⟩ := List.nodup_append.1 nodup
    have advanced := x.work_advanced began w
    obtain ⟨tracks, done⟩ := ih (h.work began w fun d now => fresh d (by simp [now])) later fun d mem => by
      rw [advanced, List.mem_append, not_or]
      exact ⟨fun now => apart d now d mem rfl, fresh d (List.mem_append_right _ mem)⟩
    refine ⟨tracks, fun d mem => done d ?_⟩
    rw [advanced]
    simp only [List.mem_append] at mem ⊢
    tauto

/-- The work of a field start advances every deck. -/
theorem mem_advancedBy_workOrder (asked : List FieldWork) (d : DeckNo) : d ∈ advancedBy (workOrder asked) := by
  have listed : FieldWork.advance d [] ∈ defaultWork := by fin_cases d <;> decide
  obtain ⟨w, mem, piece⟩ := List.mem_map.1 ((workOrder_spec asked).2 _ listed)
  refine List.mem_filterMap.2 ⟨w, mem, ?_⟩
  cases w <;> simp_all [FieldWork.piece, advances]

/-- After the work of a field start each record has made its step once (R62). -/
theorem Part.fieldWork_position (p : Part) (asked : List FieldWork) (d : DeckNo) :
    ((p.fieldWork asked).deck d).position = ((p.deck d).wound p.counting).position := by
  obtain ⟨tracks, done⟩ := (FieldCtx.Tracks.start p).works p.eds.phase (workOrder asked)
    (advancedBy_nodup (workOrder_spec asked).1) (fun _ _ => List.not_mem_nil)
  have deck := tracks.deck d
  rw [if_pos (done d (.inr (mem_advancedBy_workOrder asked d)))] at deck
  exact (congrArg Deck.position deck :)

/-- The opening of a field leaves the decks, the counting, the engine and the chase unit as they were. -/
theorem Part.opened_kept (p : Part) (pins : BitVec 4) :
    (p.opened pins).eds = p.eds ∧ (p.opened pins).tcu = p.tcu ∧ (p.opened pins).decks = p.decks
    ∧ (p.opened pins).chu = p.chu ∧ (p.opened pins).counting = p.counting := by
  have studio := p.opened_studio pins
  simp only [Part.studio, Prod.mk.injEq] at studio
  obtain ⟨-, eds, tcu, decks, chu⟩ := studio
  refine ⟨eds, tcu, decks, chu, ?_⟩
  have rtu : (p.opened pins).rtu = p.rtu.opensField := congrArg Prod.fst (p.opened_aside pins)
  rw [Part.counting, rtu, tcu, p.rtu.opensField_kept.1, Part.counting]

/-- Settles O30: the step by its three cases, and the tapes tracked through the work. -/
theorem recordAdvances : Obligations.RecordAdvances := by
  refine ⟨?_, fun s pins order ready => ?_⟩
  · intro r day t speed positive v a
    have motion : motionOf t speed = v := by cases t <;> rfl
    obtain ⟨taken, age, vitcAge, deckAge⟩ := r.advanced_ages day t speed
    refine ⟨taken.trans motion, age, vitcAge, deckAge, fun shuttles => ?_, fun fwd rew valid => ?_, fun fwd rew invalid => ?_⟩
    · rw [show a = _ from r.advanced_shuttle day ((isShuttle_iff t).2 shuttles) speed]
      exact ⟨rfl, rfl, rfl, rfl⟩
    · have runs : isShuttle t = false := by simp [← Bool.not_eq_true, isShuttle_iff, fwd, rew]
      simp only [a, PosRec.advanced_valid valid day runs, motion]
      refine ⟨valid, moved_eq positive _ _, Int.toNat_of_nonneg (Int.emod_nonneg _ (by decide)), moved_lt positive _ _⟩
    · have runs : isShuttle t = false := by simp [← Bool.not_eq_true, isShuttle_iff, fwd, rew]
      simp only [a, PosRec.advanced_invalid invalid day runs]
      exact ⟨invalid, rfl, rfl⟩
  · refine ⟨(s.part.opened pins).fieldWork order, ?_, ?_⟩
    · rw [← Part.fieldStart_eq _ _ _ ready]
      rfl
    · intro d k a
      obtain ⟨-, -, decks, -, counting⟩ := s.part.opened_kept pins
      rw [Part.fieldWork_position, Part.deck, decks, counting]
      exact PosRec.judged_eq _

end Sys2Proof.Machine
end

section
/-! ## Positions and marks within the day (O31)

What a command does to the positions and to the mark stack, and to the counting that gives them their day. -/

namespace Sys2Proof.Machine

open Sys2Proof

/-! ### The position of a label (R55, R56, R58) -/

theorem Counting.rate_gt (c : Counting) : 2 < c.rate := by
  obtain ⟨std, drop⟩ := c
  cases std <;> decide +revert

/-- Normalising leaves a label in range. -/
theorem normalise_inRange {c : Counting} {l : Label} (h : labelInRange c l = true) :
    labelInRange c (normalise c l).1 = true := by
  rw [labelInRange_iff] at h ⊢
  obtain ⟨hours, minutes, seconds, frames⟩ := h
  unfold normalise
  split
  · exact ⟨hours, minutes, seconds, c.rate_gt⟩
  · exact ⟨hours, minutes, seconds, frames⟩

/-- The digits of a label in range count less than the day. -/
theorem rawCount_lt {std : Standard} {df : Bool} {l : Label} (h : labelInRange (countingOf std df) l = true) :
    rawCount (countingOf std df) l < (countingOf std df).dayFrames := by
  obtain ⟨hours, minutes, seconds, frames⟩ := (labelInRange_iff _ _).1 h
  rcases countingOf_cases std df with ⟨drop, rate, day⟩ | ⟨plain, day⟩
  · rw [rawCount, if_pos drop, day]
    rw [rate] at frames
    omega
  · rw [rawCount, if_neg (by simp [plain]), day]
    have whole : (60 * l.hh + l.mm) * 60 + l.ss + 1 ≤ 86400 := by omega
    calc _ < ((60 * l.hh + l.mm) * 60 + l.ss + 1) * (countingOf std df).rate :=
          (Nat.add_lt_add_left frames _).trans_eq (Nat.succ_mul _ _).symm
      _ ≤ 86400 * (countingOf std df).rate := Nat.mul_le_mul_right _ whole

/-- The position of a label in range lies within the day. -/
theorem labelPosition_lt {std : Standard} {df : Bool} {l : Label} (h : labelInRange (countingOf std df) l = true) :
    labelPosition (countingOf std df) l < (countingOf std df).day := by
  have count := rawCount_lt (normalise_inRange h)
  have half : fieldBit l.field < 2 := by cases l.field <;> decide
  simp only [labelPosition, labelCount, positionOf, Counting.day]
  omega

theorem readLabel_inRange {c : Counting} {raw : RawLabel} {l : Label} {n : Bool} (h : readLabel c raw = some (l, n)) :
    labelInRange c l = true := by
  simp only [readLabel, Bool.and_eq_true] at h
  split at h
  · next good =>
    obtain rfl := congrArg Prod.fst (Option.some.inj h).symm
    exact normalise_inRange good.1
  · exact absurd h (by simp)

/-! ### The invariant -/

/-- Positions and marks within the day of a counting, and at most eight marks. -/
structure WithinDay (c : Counting) (marks : List Mark) (record : DeckNo → PosRec) : Prop where
  position : ∀ d, (record d).position < c.day
  acc : ∀ d, (record d).acc < 256
  depth : marks.length ≤ 8
  marked : ∀ m ∈ marks, m.position < c.day

/-- The positions and marks of the part are within the day of the counting in use. -/
def Part.InDay (p : Part) : Prop := WithinDay p.counting p.tcu.marks fun d => (p.deck d).position

theorem Part.positionsSound_iff (p : Part) : p.positionsSound = true ↔ p.InDay := by
  simp only [Part.positionsSound, Bool.and_eq_true, List.all_eq_true, decide_eq_true_eq]
  exact ⟨fun ⟨⟨records, depth⟩, marked⟩ =>
      ⟨fun d => (records d (mem_allDecks d)).1, fun d => (records d (mem_allDecks d)).2, depth, marked⟩,
    fun ⟨position, acc, depth, marked⟩ => ⟨⟨fun d _ => ⟨position d, acc d⟩, depth⟩, marked⟩⟩

namespace Part.InDay

variable {p q : Part}

theorem ite {c : Prop} [Decidable c] (h : p.InDay) (k : q.InDay) : (if c then p else q).InDay := by
  split
  · exact h
  · exact k

/-- Fewer marks and no record changed. -/
theorem of_same (h : p.InDay) (counting : q.counting = p.counting) (marks : q.tcu.marks <:+ p.tcu.marks)
    (record : ∀ d, (q.deck d).position = (p.deck d).position) : q.InDay where
  position d := by rw [record, counting]; exact h.position d
  acc d := by rw [record]; exact h.acc d
  depth := marks.length_le.trans h.depth
  marked m mem := by rw [counting]; exact h.marked m (marks.subset mem)

/-- The moves of events and chases take nothing out of the day. -/
theorem steers (h : p.InDay) (k : p.Steers q) : q.InDay := h.of_same k.counting k.marks k.position

/-- A change of one deck record that keeps its position within the day. -/
theorem modDeck (h : p.InDay) (d : DeckNo) {f : Deck → Deck} (position : (f (p.deck d)).position.position < p.counting.day)
    (acc : (f (p.deck d)).position.acc < 256) : (p.modDeck d f).InDay where
  position e := by
    by_cases same : e = d
    · subst same
      rw [Part.modDeck_deck_self]
      exact position
    · rw [Part.modDeck_deck_ne _ _ same]
      exact h.position e
  acc e := by
    by_cases same : e = d
    · subst same
      rw [Part.modDeck_deck_self]
      exact acc
    · rw [Part.modDeck_deck_ne _ _ same]
      exact h.acc e
  depth := h.depth
  marked := h.marked

/-- A change of one deck record that leaves its position record alone. -/
theorem modDeck_same (h : p.InDay) (d : DeckNo) {f : Deck → Deck} (same : (f (p.deck d)).position = (p.deck d).position) :
    (p.modDeck d f).InDay :=
  h.modDeck d (by rw [same]; exact h.position d) (by rw [same]; exact h.acc d)

theorem pushMark (h : p.InDay) {m : Mark} (within : m.position < p.counting.day) : (p.pushMark m).InDay := by
  rw [p.pushMark_eq]
  refine ⟨h.position, h.acc, List.length_take_le _ _, fun x mem => ?_⟩
  rcases List.mem_cons.1 (List.mem_of_mem_take mem) with rfl | old
  · exact within
  · exact h.marked x old

theorem capture (h : p.InDay) (d : DeckNo) (g : Fin 4) : (p.capture d g).InDay := by
  unfold Part.capture
  split
  · exact h.pushMark (h.position d)
  · exact h

/-! ### Measurements (R64 to R68) -/

/-- A record that a measurement replaces lies within the day. -/
theorem replaced (h : p.InDay) (d : DeckNo) (r : PosRec) (position elapsed : Nat) (v : Int) (src : PosSource) :
    (p.modDeck d fun k => { k with position := r.replaced p.counting.day position elapsed v src }).InDay :=
  h.modDeck d (moved_lt p.counting.day_pos _ _)
    ((Int.toNat_lt (Int.emod_nonneg _ (by decide))).2 (Int.emod_lt_of_pos _ (by decide)))

theorem positionMeasured (h : p.InDay) (d : DeckNo) : (p.positionMeasured d).InDay :=
  h.steers ((Part.Steers.refl p).positionMeasured d)

theorem useVitc (h : p.InDay) (d : DeckNo) (position field : Nat) : (p.useVitc d position field).InDay := by
  unfold Part.useVitc
  dsimp only
  split
  · exact (h.replaced d _ _ _ _ _).positionMeasured d
  · exact h.modDeck d (h.position d) (h.acc d)

theorem vitcMeasurement (h : p.InDay) (d : DeckNo) (x : Reading) : (p.vitcMeasurement d x).InDay := by
  unfold Part.vitcMeasurement
  split
  · exact h.useVitc d _ _
  · exact h

theorem useDeckReply (h : p.InDay) (d : DeckNo) (position field : Nat) (src : TcSource) :
    (p.useDeckReply d position field src).InDay := by
  unfold Part.useDeckReply
  dsimp only
  split
  · exact (h.replaced d _ _ _ _ _).positionMeasured d
  · exact h.modDeck d (h.position d) (h.acc d)

theorem deckMeasurement (h : p.InDay) (d : DeckNo) (label : RawLabel) (src : TcSource) (field : Nat) :
    (p.deckMeasurement d label src field).InDay := by
  unfold Part.deckMeasurement
  split
  · split
    · exact h.useDeckReply d _ _ _
    · exact h
  · exact h

/-! ### Changes of counting (R69, R70, R88) -/

/-- After a change of counting every position is 0 and there is no mark. -/
theorem countingChanged (p : Part) : p.countingChanged.InDay := by
  have cleared (d : DeckNo) : (p.countingChanged.deck d).position = (p.deck d).position.cleared :=
    congrArg Deck.position (Table.get_map _ _ d)
  exact ⟨fun d => by rw [cleared]; exact Counting.day_pos _, fun d => by rw [cleared]; exact Nat.zero_lt_succ _,
    Nat.zero_le _, fun m mem => absurd mem List.not_mem_nil⟩

theorem standardChangeEvent (p : Part) : p.standardChangeEvent.InDay := by
  have unsettled : (p.countingChanged.modTcu fun t => { t with settled := false }).InDay := countingChanged p
  exact unsettled.steers (Part.Steers.refl _).edsStandardChange

theorem changeDfMode (p : Part) (df : Bool) : (p.changeDfMode df).InDay :=
  (countingChanged _).steers (Part.Steers.refl _).edsCountingChange

theorem setPreferences (h : p.InDay) (f : DeckNo → Preference) : (p.setPreferences f).InDay :=
  Part.each_stays (fun d _ k => k.modDeck d (k.position d) (k.acc d)) allDecks h

theorem configureTimecode (h : p.InDay) (df : Bool) (f : DeckNo → Preference) : (p.configureTimecode df f).InDay := by
  unfold Part.configureTimecode
  dsimp only
  split
  · exact h.setPreferences f
  · exact changeDfMode _ df

/-! ### Marks (R73) -/

theorem pushLabel (h : p.InDay) (d : DeckNo) (raw : RawLabel) : (p.pushLabel d raw).1.InDay := by
  unfold Part.pushLabel
  split
  · exact h
  · next label => exact h.pushMark (labelPosition_lt (readLabel_inRange label))

theorem pushNow (h : p.InDay) (d : DeckNo) : (p.pushNow d).1.InDay := by
  unfold Part.pushNow
  split
  · exact h.pushMark (h.position d)
  · exact h

/-! ### Deck lines (chapters 5 and 6) -/

theorem assignDeck (h : p.InDay) (d : DeckNo) (role : Role) (input : Option Input) : (p.assignDeck d role input).1.InDay := by
  have assigned : (p.modDeck d (·.assigned role input)).InDay := h.modDeck_same d rfl
  unfold Part.assignDeck
  dsimp only
  split <;> exact assigned

theorem askAssign (h : p.InDay) (d : DeckNo) (role : Role) (input : Option Input) : (p.askAssign d role input).1.InDay := by
  unfold Part.askAssign
  split
  · exact h
  · split
    · exact h
    · split
      · exact h
      · exact h.assignDeck d role input

theorem askDirect (h : p.InDay) (d : DeckNo) (x : Direct) (b : Bool) : (p.askDirect d x b).1.InDay := by
  unfold Part.askDirect
  split
  · exact h
  · split
    · exact h
    · exact h.modDeck_same d rfl

theorem sendItem (h : p.InDay) (d : DeckNo) (i : Item) : (p.sendItem d i).InDay := by
  have kept (k : Deck) (f : Frame) : (k.sentWith f).position = k.position := by cases f <;> rfl
  have sent : (p.modDeck d fun x =>
      let y := x.sentWith (itemFrame p.counting (p.deck d) (p.port d) i)
      match i with
      | .direct => { y with direct := none }
      | _ => y).InDay := by
    refine h.modDeck_same d ?_
    cases i <;> exact kept _ _
  exact sent

theorem arbitrate (h : p.InDay) (d : DeckNo) : (p.arbitrate d).InDay := by
  unfold Part.arbitrate
  split
  · exact h
  · split
    · exact h.sendItem d _
    · exact h

theorem timeoutNotices (h : p.InDay) (x y : LineState) : (p.timeoutNotices x y).InDay := by
  unfold Part.timeoutNotices
  (repeat' split) <;> exact h

theorem lineChanged (h : p.InDay) (d : DeckNo) : (p.lineChanged d).InDay := h.steers ((Part.Steers.refl p).lineChanged d)

theorem timeout (h : p.InDay) (d : DeckNo) : (p.timeout d).InDay := by
  unfold Part.timeout
  extract_lets before q after r
  have counted : q.InDay := by
    refine Part.InDay.modDeck_same (p := p.modPort d fun x => { x with flight := none }) h d ?_
    split <;> rfl
  have told : r.InDay := counted.timeoutNotices before after
  split
  · split
    · exact told
    · exact told.lineChanged d
  · exact told

theorem judgeDeadline (h : p.InDay) (d : DeckNo) : (p.judgeDeadline d).InDay := by
  unfold Part.judgeDeadline
  split
  · exact h.timeout d
  · exact h

theorem atSlotLine (h : p.InDay) (d : DeckNo) : (p.atSlotLine d).InDay :=
  Part.InDay.arbitrate (p := (p.judgeDeadline d).countDown d) (h.judgeDeadline d) d

theorem replyNotices (h : p.InDay) (x : LineState) (r : DeckReply) : (p.replyNotices x r).InDay := by
  unfold Part.replyNotices
  dsimp only
  (repeat' split) <;> exact h

theorem goodReply (h : p.InDay) (d : DeckNo) (x : Flight) (r : DeckReply) : (p.goodReply d x r).InDay := by
  unfold Part.goodReply
  extract_lets before q s
  have replied (k : Deck) : (k.replied x.frame r).position = k.position := by
    unfold Deck.replied Deck.putBack
    dsimp only
    split
    · cases x.frame <;> rfl
    · rfl
  have freed : (p.modPort d fun t => { t with flight := none }).InDay := h
  have measured : q.InDay := ((freed.modDeck_same d (replied _)).replyNotices before r).deckMeasurement d _ _ _
  have reported : s.InDay := measured.steers ((Part.Steers.refl q).deckReported d _ _ _)
  exact reported.ite (reported.lineChanged d)

/-! ### Inputs (chapter 3) -/

theorem deliver (h : p.InDay) (i : Input) (x : Reading) : (p.deliver i x).InDay := by
  unfold Part.deliver
  split
  · exact h.vitcMeasurement _ x
  · exact h

theorem deliverAtEntry (h : p.InDay) (i : Input) (x : SiuState) : (p.deliverAtEntry i x).InDay := by
  unfold Part.deliverAtEntry
  split
  · split
    · exact h
    · exact h.deliver i _
  · exact h

theorem inputNotice (h : p.InDay) (x y : SiuState) : (p.inputNotice x y).InDay := by
  unfold Part.inputNotice
  (repeat' split) <;> exact h

theorem inputGood (h : p.InDay) (i : Input) : (p.inputGood i).InDay :=
  (Part.InDay.inputNotice (p := p.modSiu i _) h _ _).deliverAtEntry i _

theorem inputBad (h : p.InDay) (i : Input) (judge : Siu → Siu) : (p.inputBad i judge).InDay :=
  Part.InDay.inputNotice (p := p.modSiu i judge) h _ _

theorem slip (h : p.InDay) (i : Input) (field line : Nat) : (p.slip i field line).InDay := by
  unfold Part.slip
  dsimp only
  split <;> exact h

theorem formReading (h : p.InDay) (i : Input) (x y : VitcLine) : (p.formReading i x y).InDay := by
  unfold Part.formReading
  extract_lets s reading q
  have formed : q.InDay := h
  split
  · exact formed.deliver i _
  · exact formed

/-! ### The RTU (R6 to R14) -/

theorem takeStandard (p : Part) (std : Standard) : (p.takeStandard std).InDay := standardChangeEvent _
theorem detectStandard (p : Part) (std : Standard) : (p.detectStandard std).InDay := standardChangeEvent _

theorem handLocked (h : p.InDay) (jump : Bool) : (p.handLocked jump).InDay :=
  Part.InDay.steers (p := p.modTcu fun t => { t with settled := true }) h ((Part.Steers.refl _).lockEntered jump)

theorem countOpened (h : p.InDay) : p.countOpened.InDay := by
  unfold Part.countOpened
  split <;> exact h

theorem enterLocked (h : p.InDay) (std : Standard) (f : FieldId) : (p.enterLocked std f).InDay := by
  unfold Part.enterLocked
  extract_lets q changed s jump t
  have placed : s.InDay := by
    dsimp only [s]
    split
    · exact takeStandard q std
    · exact h
  have snapped : t.InDay := by
    dsimp only [t]
    split <;> exact placed
  exact snapped.countOpened.handLocked jump

theorem enterFreewheel (h : p.InDay) : p.enterFreewheel.InDay :=
  Part.InDay.steers (p := (p.modRtu fun r => { r with lock := .freewheel, run := 0, miss := 0 }).raise .refLost) h
    (Part.Steers.refl _).lockLeft

theorem countMiss (h : p.InDay) : p.countMiss.InDay := by
  unfold Part.countMiss
  split
  · exact h
  · exact h.enterFreewheel

theorem judgeGood (h : p.InDay) (std : Standard) (f : FieldId) : (p.judgeGood std f).InDay := by
  unfold Part.judgeGood
  split
  · exact h
  · split
    · exact h
    · split
      · exact h
      · exact h.enterLocked std f
  · split
    · exact detectStandard p std
    · split
      · exact h
      · exact h.countMiss
  · split
    · exact detectStandard p std
    · split
      · exact h
      · exact h.enterLocked std f

theorem judgeBad (h : p.InDay) : p.judgeBad.InDay := by
  unfold Part.judgeBad
  split
  · exact h
  · split <;> exact h
  · exact h.countMiss
  · exact h

theorem refBad (h : p.InDay) : p.refBad.InDay := Part.InDay.judgeBad (p := p.modRtu _) h

theorem refClosed (h : p.InDay) (obs : FieldObs) : (p.refClosed obs).InDay := by
  have opens : (p.refReference obs.closing).InDay := h
  unfold Part.refClosed
  split
  · exact h
  · split
    · exact opens.judgeGood _ _
    · exact opens.judgeBad

/-! ### Resets (R5, R33) -/

theorem resetWith (p : Part) (c : ResetCause) : (p.resetWith c).InDay :=
  (Part.positionsSound_iff _).1 (by cases c <;> rfl)

theorem applyFullReset (p : Part) : p.applyFullReset.InDay := resetWith p .command

/-! ### A field start (R62, R74) -/

theorem advanceRecord (h : p.InDay) (d : DeckNo) : (p.advanceRecord d).InDay := by
  have kept (r : PosRec) : r.judged.position = r.position ∧ r.judged.acc = r.acc := by
    unfold PosRec.judged
    split <;> exact ⟨rfl, rfl⟩
  have advanced (r : PosRec) (position : r.position < p.counting.day) (acc : r.acc < 256) (t : Transport) (speed : Int) :
      (r.advanced p.counting.day t speed).position < p.counting.day ∧ (r.advanced p.counting.day t speed).acc < 256 := by
    unfold PosRec.advanced
    dsimp only
    split
    · exact ⟨position, Nat.zero_lt_succ _⟩
    · split
      · exact ⟨moved_lt p.counting.day_pos _ _,
          (Int.toNat_lt (Int.emod_nonneg _ (by decide))).2 (Int.emod_lt_of_pos _ (by decide))⟩
      · exact ⟨position, acc⟩
  obtain ⟨position, acc⟩ := advanced _ (h.position d) (h.acc d) (p.deck d).transport (p.deck d).speed
  obtain ⟨samePosition, sameAcc⟩ := kept ((p.deck d).position.advanced p.counting.day (p.deck d).transport (p.deck d).speed)
  exact (h.modDeck d (samePosition.trans_lt position) (sameAcc.trans_lt acc)).steers (p.advanceRecord_steers d)

theorem handEdge {x : FieldCtx} (h : x.part.InDay) (g : Gpi) (n : Fin 4) : (x.handEdge g n).part.InDay := by
  unfold FieldCtx.handEdge
  split
  · exact h
  · split
    · exact h.capture _ _
    · exact h
  · exact h.steers (Part.Steers.refl _).takeTrigger
  · exact h.steers (Part.Steers.refl _).allStop

theorem judgeEdge {x : FieldCtx} (h : x.part.InDay) (n : Fin 4) : (x.judgeEdge n).part.InDay := by
  unfold FieldCtx.judgeEdge
  extract_lets g x'
  have accepts : x'.part.InDay := h
  split
  · split
    · exact accepts.handEdge g n
    · exact accepts
  · exact h

theorem releaseHeld {x : FieldCtx} (h : x.part.InDay) (d : DeckNo) : (x.releaseHeld d).part.InDay := by
  unfold FieldCtx.releaseHeld
  dsimp only
  generalize x.part = p at h
  induction x.held.filter (fun h => h.1 == d) generalizing p with
  | nil => exact h
  | cons m ms ih => exact ih _ (h.capture _ _)

theorem react {x : FieldCtx} (h : x.part.InDay) (d : DeckNo) (r : Reaction) : (x.react d r).part.InDay := by
  cases r with
  | sequencer => exact h.steers ((Part.Steers.refl _).signalAdvance d)
  | captures => exact h.releaseHeld d
  | chase e =>
    simp only [FieldCtx.react, FieldCtx.computeReady]
    split
    · exact h.steers ((Part.Steers.refl _).computeHeld e)
    · exact h

theorem reacts {x : FieldCtx} (h : x.part.InDay) (d : DeckNo) (rs : List Reaction) :
    (rs.foldl (fun y r => y.react d r) x).part.InDay := by
  induction rs generalizing x with
  | nil => exact h
  | cons r rs ih => exact ih (h.react d r)

theorem work {x : FieldCtx} (h : x.part.InDay) (began : Phase) (w : FieldWork) : (x.work began w).part.InDay := by
  have start := Part.Steers.refl x.part
  cases w with
  | advance d first =>
    exact Part.InDay.reacts (x := { x with part := x.part.advanceRecord d, advanced := d :: x.advanced })
      (h.advanceRecord d) d _
  | cueTimers =>
    simp only [FieldCtx.work]
    split
    · exact h.steers start.tickCueTimers
    · exact h
  | rollPlays => exact h.steers (start.each _ _ fun d _ k => k.rollPlay d)
  | postroll =>
    simp only [FieldCtx.work]
    split
    · exact h.steers start.tickPostroll
    · exact h
  | guard => exact h.steers start.tickGuard
  | autoTake => exact h
  | gpi n =>
    exact Part.InDay.judgeEdge (x := { x with part := x.part.modGtu fun u =>
      { u with gpis := u.gpis.modify n (·.sampled (x.part.gtu.pins.getLsbD n.val)) } }) h n

theorem fieldWork (h : p.InDay) (asked : List FieldWork) : (p.fieldWork asked).InDay := by
  have works (ws : List FieldWork) (x : FieldCtx) (k : x.part.InDay) :
      (ws.foldl (FieldCtx.work p.eds.phase) x).part.InDay := by
    induction ws generalizing x with
    | nil => exact k
    | cons w ws ih => exact ih _ (k.work _ w)
  exact works _ _ h

theorem fieldStart (h : p.InDay) (pins : BitVec 4) (asked : List FieldWork) : (p.fieldStart pins asked).InDay := by
  cases pending : p.pku.fullPending with
  | false =>
    rw [Part.fieldStart_eq _ _ _ pending]
    obtain ⟨-, tcu, decks, -, counting⟩ := p.opened_kept pins
    have opened : (p.opened pins).InDay :=
      h.of_same counting (by rw [tcu]) fun d => by rw [Part.deck, decks]; rfl
    exact opened.fieldWork asked
  | true =>
    have applies : (p.modGtu fun g => { g with pins := pins }).pku.fullPending = true := pending
    rw [Part.fieldStart]
    simp only [applies, if_true]
    exact applyFullReset _

end Part.InDay

end Sys2Proof.Machine
end

section
/-! ## Positions and marks, command by command (O31) -/

namespace Sys2Proof.Machine

open Sys2Proof

/-- The command leads to a state with its positions and marks within the day. -/
def LeadsInDay (o : Host.Outcome State Fault Refusal) : Prop := ∀ t, o = .next t → t.part.InDay

/-- A list starts with moves of its event alone. -/
theorem Part.InDay.startList {p : Part} (h : p.InDay) (n : SlotNo) : (p.startList n).InDay :=
  h.steers (((Part.Steers.refl p).modEds _).startEvent n)

/-- A record that is stale holds its position. -/
theorem Part.InDay.judgeStale {p : Part} (h : p.InDay) (d : DeckNo) : (p.judgeStale d).InDay := by
  by_cases stale : (p.deck d).position.stale = true
  · rw [Part.judgeStale_of_stale stale]
    exact (h.modDeck d (h.position d) (h.acc d)).steers ((Part.Steers.refl _).positionStale d)
  · rw [Part.judgeStale_of_fresh (Bool.eq_false_iff.2 stale)]
    exact h

namespace LeadsInDay

theorem ran {s : State} {p : Part} (h : p.InDay) : LeadsInDay (Machine.ran s p) := by
  rintro t ⟨⟩
  exact h

/-- A reply is no position and no mark. -/
theorem answered {s : State} {r : Part × Answer} (k o : Nat) (h : r.1.InDay) : LeadsInDay (dispatched s k o r) :=
  .ran (p := r.1.reply k o r.2) h

theorem accepted {s : State} {p : Part} {a : Answer} (k o : Nat) (h : p.InDay) :
    LeadsInDay (dispatched s k o (p, a)) :=
  .answered k o h

end LeadsInDay

/-! ### Commands that touch a position or a mark -/

section
variable {s : State} (h : s.part.InDay)
include h

theorem execTcConfig_inDay (off df a b c d : Nat) : LeadsInDay (execTcConfig off df a b c d s) := by
  unfold execTcConfig
  split
  · split
    · exact .accepted _ _ h
    · exact .accepted _ _ (h.configureTimecode _ _)
  · exact .accepted _ _ h

theorem execMarkPush_inDay (off deck : Nat) (x : LabelChoice) : LeadsInDay (execMarkPush off deck x s) := by
  unfold execMarkPush
  split
  · exact .accepted _ _ h
  · split
    · exact .answered _ _ (h.pushLabel _ _)
    · exact .answered _ _ (h.pushNow _)
    · exact .accepted _ _ h

theorem execMarkPop_inDay (off : Nat) : LeadsInDay (execMarkPop off s) := by
  unfold execMarkPop
  split
  · exact .accepted _ _ h
  · next m rest top =>
    exact .accepted _ _ (h.steers ((Part.Steers.refl s.part).popMarks rest (top ▸ List.suffix_cons m rest)))

theorem execDeckAssign_inDay (off deck role input : Nat) : LeadsInDay (execDeckAssign off deck role input s) := by
  unfold execDeckAssign
  split
  · exact .answered _ _ (h.askAssign _ _ _)
  · exact .accepted _ _ h

theorem execDeckParams_inDay (off deck a b c d e f : Nat) : LeadsInDay (execDeckParams off deck a b c d e f s) := by
  unfold execDeckParams
  dsimp only
  split
  · exact .accepted _ _ h
  · split
    · exact .accepted _ _ h
    · exact .accepted _ _ (h.modDeck_same _ rfl)

theorem execDeckDirect_inDay (off deck command : Nat) (v : Int) (l : RawLabel) :
    LeadsInDay (execDeckDirect off deck command v l s) := by
  unfold execDeckDirect
  split
  · exact .answered _ _ (h.askDirect _ _ _)
  · exact .accepted _ _ h

theorem execDeckReplyGood_inDay (d : DeckNo) (r : DeckReply) : LeadsInDay (execDeckReplyGood d r s) := by
  unfold execDeckReplyGood
  split
  · exact .ran (h.goodReply d _ r)
  · exact .ran h

theorem execDeckReplyBad_inDay (d : DeckNo) : LeadsInDay (execDeckReplyBad d s) := by
  unfold execDeckReplyBad
  split
  · exact .ran (h.timeout d)
  · exact .ran h

theorem execInputFieldWellFormed_inDay (i : Input) (obs : FieldObs) : LeadsInDay (execInputFieldWellFormed i obs s) := by
  unfold execInputFieldWellFormed
  split
  · exact .ran ((h.inputGood i).ite (h.inputBad i _))
  · exact .ran h

theorem execStoreSlip_inDay (i : Input) (line : Nat) : LeadsInDay (execStoreSlip i line s) := by
  unfold execStoreSlip
  split
  · exact .ran ((h.slip _ _ _).ite h)
  · exact .ran h

/-! ### Commands that move an event -/

theorem execResetPartFull_inDay (off scope : Nat) : LeadsInDay (execResetPartFull off scope s) := by
  unfold execResetPartFull Part.askFullReset
  split
  · split <;> exact .accepted _ _ h
  · exact .accepted _ _ (h.steers (Part.Steers.refl _).resetEngine)
  · exact .accepted _ _ h

theorem execEventArm_inDay (off slot : Nat) : LeadsInDay (execEventArm off slot s) := by
  unfold execEventArm
  split
  · exact .accepted _ _ h
  · exact .answered _ _ (h.steers ((Part.Steers.refl _).armSlot _))

theorem runList_inDay (n : SlotNo) : (s.part.runList n).1.InDay := by
  unfold Part.runList
  split
  · exact h
  · split
    · exact h
    · exact h.startList n
    · have armed := h.steers ((Part.Steers.refl s.part).armSlot n)
      split
      next q a slot =>
      rw [slot] at armed
      split
      · exact armed.startList n
      · exact armed

theorem execListRun_inDay (off slot : Nat) : LeadsInDay (execListRun off slot s) := by
  unfold execListRun
  split
  · exact .accepted _ _ h
  · exact .answered _ _ (runList_inDay h _)

theorem execAbort_inDay (off : Nat) : LeadsInDay (execAbort off s) := by
  unfold execAbort
  split
  · exact .accepted _ _ h
  · exact .accepted _ _ (h.steers ((Part.Steers.refl _).abortEvent _))

theorem execEndOpen_inDay (off : Nat) : LeadsInDay (execEndOpen off s) := by
  unfold execEndOpen
  split
  · exact .accepted _ _ (h.steers (Part.Steers.refl _).endOpenEvent)
  · exact .accepted _ _ h

/-! ### Commands of which neither the positions nor the marks hear -/

theorem execEventLoad_inDay (off : Nat) (ops : EventOperands) : LeadsInDay (execEventLoad off ops s) := by
  unfold execEventLoad Part.loadEvent
  (repeat' split) <;> exact .answered _ _ h

theorem execEventClear_inDay (off slot : Nat) : LeadsInDay (execEventClear off slot s) := by
  unfold execEventClear Part.clearSlot
  (repeat' split) <;> exact .answered _ _ h

theorem execEventRead_inDay (off slot : Nat) : LeadsInDay (execEventRead off slot s) := by
  unfold execEventRead
  split <;> exact .answered _ _ h

theorem execListStop_inDay (off : Nat) : LeadsInDay (execListStop off s) := by
  unfold execListStop
  split <;> exact .answered _ _ h

theorem execClearNotices_inDay (off mask : Nat) : LeadsInDay (execClearNotices off mask s) := by
  unfold execClearNotices
  split <;> exact .answered _ _ h

theorem execNoticeMask_inDay (off mask : Nat) : LeadsInDay (execNoticeMask off mask s) := by
  unfold execNoticeMask
  split <;> exact .answered _ _ h

theorem execInputConfig_inDay (off input a b c d : Nat) : LeadsInDay (execInputConfig off input a b c d s) := by
  unfold execInputConfig
  dsimp only
  split <;> exact .answered _ _ h

theorem execSubstPolicy_inDay (off input policy : Nat) : LeadsInDay (execSubstPolicy off input policy s) := by
  unfold execSubstPolicy
  (repeat' split) <;> exact .answered _ _ h

theorem execDeckRead_inDay (off deck : Nat) : LeadsInDay (execDeckRead off deck s) := by
  unfold execDeckRead
  split <;> exact .answered _ _ h

theorem execChaseParams_inDay (off a b c d e f : Nat) : LeadsInDay (execChaseParams off a b c d e f s) := by
  unfold execChaseParams
  dsimp only
  split <;> exact .answered _ _ h

/-- A mixer command of the host touches the mixer alone. -/
theorem hostMix_inDay (f : Mep → Mep) (a : Answer) : (s.part.hostMix f a).1.InDay := by
  unfold Part.hostMix
  split <;> exact h

theorem execXptSet_inDay (off a b c : Nat) : LeadsInDay (execXptSet off a b c s) := by
  unfold execXptSet
  split
  · exact .answered _ _ (hostMix_inDay h _ _)
  · exact .accepted _ _ h

theorem execKeyParams_inDay (off a b c d e f : Nat) : LeadsInDay (execKeyParams off a b c d e f s) := by
  unfold execKeyParams
  dsimp only
  split
  · exact .answered _ _ (hostMix_inDay h _ _)
  · exact .accepted _ _ h

theorem execAutoTake_inDay (off a b c d e f : Nat) : LeadsInDay (execAutoTake off a b c d e f s) := by
  unfold execAutoTake
  dsimp only
  split
  · exact .answered _ _ (hostMix_inDay h _ _)
  · exact .accepted _ _ h

theorem execPatternLoad_inDay (off a b c d e : Nat) : LeadsInDay (execPatternLoad off a b c d e s) := by
  unfold execPatternLoad
  dsimp only
  (repeat' split) <;> exact .answered _ _ h

theorem execCurveLoad_inDay (off n : Nat) (points : List Nat) : LeadsInDay (execCurveLoad off n points s) := by
  unfold execCurveLoad
  (repeat' split) <;> exact .answered _ _ h

theorem takeActiveSet_inDay : s.part.takeActiveSet.InDay := by
  unfold Part.takeActiveSet
  dsimp only
  split <;> exact h

theorem execGpiConfig_inDay (off input role edge debounce deck : Nat) :
    LeadsInDay (execGpiConfig off input role edge debounce deck s) := by
  unfold execGpiConfig
  dsimp only
  split <;> exact .answered _ _ h

theorem execTallyConfig_inDay (off output role : Nat) : LeadsInDay (execTallyConfig off output role s) := by
  unfold execTallyConfig
  split <;> exact .answered _ _ h

end

/-! ### Every command -/

/-- Every command keeps positions and marks within the day. -/
theorem exec_inDay (i : Instr) {s : State} (h : s.part.InDay) : LeadsInDay (exec i s) := by
  have start := Part.Steers.refl s.part
  cases i with
  | powerOn => exact .ran (Part.InDay.resetWith _ _)
  | resetLine => exact .ran (Part.InDay.resetWith _ _)
  | fieldStart pins order => exact .ran (h.fieldStart pins order)
  | refFieldWellFormed obs time => exact .ran (Part.InDay.refClosed (p := s.part.arrivingAt time) h obs)
  | refFieldBad cause => exact .ran (h.refBad.ite h)
  | silenceJudgement => exact .ran (Part.InDay.refBad (p := s.part.modRtu Rtu.silenceJudged) h)
  | refFieldOpened f => exact .ran (p := s.part.refReference f) h
  | packetBadFormat off kind => exact .accepted _ _ h
  | packetUnknownKind | packetWrongLength => exact .accepted _ _ h
  | statusBlockWrite => exact .ran (p := s.part.modPku _) h
  | replyRecordWrite => exact .ran (p := s.part.modPku _) h
  | ctrlLines off a b c d => exact .accepted _ _ h
  | clearNotices off mask => exact execClearNotices_inDay h off mask
  | noticeMask off mask => exact execNoticeMask_inDay h off mask
  | resetPartFull off scope => exact execResetPartFull_inDay h off scope
  | resetPartFullApply => exact .ran ((Part.InDay.applyFullReset _).ite h)
  | resetPartEngine off => exact .accepted _ _ (h.steers start.resetEngine)
  | inputConfig off input a b c d => exact execInputConfig_inDay h off input a b c d
  | substPolicy off input policy => exact execSubstPolicy_inDay h off input policy
  | inputFieldReference input f time => exact .ran (p := (s.part.arrivingAt time).modSiu input _) h
  | inputFieldWellFormed input obs => exact execInputFieldWellFormed_inDay h input obs
  | inputFieldBad input cause => exact .ran ((h.inputBad input _).ite h)
  | inputSilenceBad input => exact .ran ((h.inputBad input _).ite h)
  | inputNoSignal input => exact .ran (p := s.part.modSiu input _) h
  | storeSlip input line => exact execStoreSlip_inDay h input line
  | vitcReading input first second => exact .ran (h.formReading input first second)
  | tcConfig off df a b c d => exact execTcConfig_inDay h off df a b c d
  | positionStale deck => exact .ran (h.judgeStale deck)
  | markPush off deck position => exact execMarkPush_inDay h off deck position
  | markPop off => exact execMarkPop_inDay h off
  | markClear off => exact .accepted _ _ (h.steers (start.popMarks [] List.nil_suffix))
  | deckAssign off deck role input => exact execDeckAssign_inDay h off deck role input
  | deckParams off deck a b c d e f => exact execDeckParams_inDay h off deck a b c d e f
  | deckRead off deck => exact execDeckRead_inDay h off deck
  | deckDirect off deck command speed cue => exact execDeckDirect_inDay h off deck command speed cue
  | slotLine deck => exact .ran (h.atSlotLine deck)
  | frameSendEnd deck => exact .ran (p := s.part.modPort deck _) h
  | deckReplyGood deck reply => exact execDeckReplyGood_inDay h deck reply
  | deckReplyBad deck => exact execDeckReplyBad_inDay h deck
  | deckTimeout deck => exact .ran (h.judgeDeadline deck)
  | chaseParams off a b c d e f => exact execChaseParams_inDay h off a b c d e f
  | eventLoad off ops => exact execEventLoad_inDay h off ops
  | eventClear off slot => exact execEventClear_inDay h off slot
  | eventRead off slot => exact execEventRead_inDay h off slot
  | eventArm off slot => exact execEventArm_inDay h off slot
  | listRun off slot => exact execListRun_inDay h off slot
  | cueTimeout deck => exact .ran (h.steers (start.judgeCueTimer deck))
  | release off => exact .accepted _ _ (h.steers start.takeRelease)
  | rollPlayDue deck => exact .ran (h.steers (start.rollPlay deck))
  | endOpen off => exact execEndOpen_inDay h off
  | postrollEnd => exact .ran ((h.steers start.endPostroll).ite h)
  | abort off => exact execAbort_inDay h off
  | listStop off => exact execListStop_inDay h off
  | guardTrip => exact .ran (h.steers start.judgeGuard)
  | guardLimit off limit => exact .accepted _ _ h
  | activeSetTake => exact .ran (takeActiveSet_inDay h)
  | xptSet off a b c => exact execXptSet_inDay h off a b c
  | keyParams off a b c d e f => exact execKeyParams_inDay h off a b c d e f
  | autoTake off a b c d e f => exact execAutoTake_inDay h off a b c d e f
  | autoTakeEnd => exact .ran (p := s.part.modMep _) h
  | patternLoad off a b c d e => exact execPatternLoad_inDay h off a b c d e
  | curveLoad off n points => exact execCurveLoad_inDay h off n points
  | gpiAcceptedEdge n =>
    exact .ran (Part.InDay.judgeEdge (x := { part := s.part, advanced := allDecks, held := [] }) h n)
  | gpiConfig off a b c d e => exact execGpiConfig_inDay h off a b c d e
  | tallyConfig off output role => exact execTallyConfig_inDay h off output role

/-- Settles O31: an idle step moves no tape, and a command keeps positions and marks within the day. -/
theorem positionsStaySound : Obligations.PositionsStaySound := by
  intro s t sound leads
  rw [Part.positionsSound_iff] at sound ⊢
  obtain ⟨p, pending⟩ := s
  cases pending with
  | nil =>
    obtain rfl := Host.Outcome.next.inj leads
    exact sound
  | cons c rest => exact exec_inDay c (s := { part := p, pending := rest }) sound t leads

end Sys2Proof.Machine
end

section
/-! ## Laws: an event that goes on or fails

What the position measured, deck reported and line state changed signals do to the active event (R112, R115, R135, R142,
R146). -/

namespace Sys2Proof.Machine

open Sys2Proof

/-! ### The end of an event at its decks (R147) -/

/-- What the failure of an event writes into the bay of each deck. -/
theorem Part.failEvent_bay (p : Part) (r : Reason) (d : DeckNo) :
    (p.failEvent r).bay d = if p.eds.active = none then p.bay d else p.stood.bay d := by
  cases active : p.eds.active with
  | none => rw [p.failEvent_none r active, if_pos rfl]
  | some n =>
    have ended (q : Part) : (q.raise .eventFailed).disarmAll.endList.bay = q.bay := rfl
    rw [p.failEvent_some r active, if_neg (Option.some_ne_none n), ended, p.closeEvent_eq, (p.stood.closeSlot_beside _ _).1]

/-- The failure of an event writes record OFF for the recorder. -/
theorem Part.failEvent_wantRecord (p : Part) (r : Reason) {d : DeckNo} (active : p.eds.active ≠ none)
    (recorder : p.recorder = some d) : ((p.failEvent r).deck d).wantRecord = false := by
  show ((p.failEvent r).bay d).deck.wantRecord = false
  rw [p.failEvent_bay r d, if_neg active, p.stood_bay d, recorder]
  simp only [Bay.recordOff, Bay.still, Bay.unchased, Bay.chaseStopped]
  split <;> rfl

/-! ### The signals of the CHU -/

/-- From `p` to `q` the engine is the same, or its event has failed. -/
def Part.KeepsOrFails (p q : Part) : Prop :=
  q.eds = p.eds ∨ (p.eds.active ≠ none ∧ ∃ r, q.eds = p.eds.failed r ∧ p.FailedAs q r)

/-- With the same event ACTIVE, or with none before, the engine is the same. -/
theorem Part.KeepsOrFails.eds {p q : Part} (h : p.KeepsOrFails q) (same : p.eds.active = none ∨ q.eds.active = p.eds.active) :
    q.eds = p.eds := by
  rcases h with same_eds | ⟨active, _, -, failed⟩
  · exact same_eds
  · obtain ⟨n, stands⟩ := Option.ne_none_iff_exists'.1 active
    obtain ⟨-, -, idle, -⟩ := failed n stands
    exact (same.elim active fun same => active (same.symm.trans idle)).elim

/-- No phase but IDLE is entered. -/
theorem Part.KeepsOrFails.phase_ne {p q : Part} (h : p.KeepsOrFails q) {x : Phase} (other : p.eds.phase ≠ x)
    (idle : Phase.idle ≠ x) : q.eds.phase ≠ x := by
  rcases h with same | ⟨active, _, -, failed⟩
  · rw [same]
    exact other
  · obtain ⟨n, stands⟩ := Option.ne_none_iff_exists'.1 active
    obtain ⟨-, phase, -⟩ := failed n stands
    exact phase.trans_ne idle

theorem Part.failEvent_keepsOrFails (p : Part) (r : Reason) : p.KeepsOrFails (p.failEvent r) := by
  by_cases idle : p.eds.active = none
  · rw [p.failEvent_none r idle]
    exact .inl rfl
  · exact .inr ⟨idle, r, p.failEvent_eds r, p.failEvent_failedAs r⟩

theorem Part.chaseLost_keepsOrFails (p : Part) (r : Reason) : p.KeepsOrFails (p.chaseLost r) := by
  unfold Part.chaseLost
  split
  · exact p.failEvent_keepsOrFails r
  · exact .inl rfl

theorem Part.syncLost_keepsOrFails (p : Part) : p.KeepsOrFails p.syncLost := by
  unfold Part.syncLost
  split
  · exact p.failEvent_keepsOrFails _
  · exact .inl rfl

theorem Part.compute_keepsOrFails (p : Part) (d : DeckNo) : p.KeepsOrFails (p.compute d) := by
  unfold Part.compute
  split
  · exact .inl rfl
  · split
    · unfold Part.computeWith
      extract_lets o e v q
      split
      · exact Part.chaseLost_keepsOrFails (p.modDeck d _) _
      · split
        · exact q.syncLost_keepsOrFails
        · exact .inl rfl
    · exact .inl rfl

theorem Part.positionMeasured_keepsOrFails (p : Part) (d : DeckNo) : p.KeepsOrFails (p.positionMeasured d) := by
  unfold Part.positionMeasured
  split
  · split
    · exact .inl rfl
    · exact p.compute_keepsOrFails d
  · exact .inl rfl

/-! ### The event of a slot, before its postroll or failed -/

/-- The event of slot `n` of `p` is ACTIVE in `q`, before its postroll. -/
structure Part.Lives (p : Part) (n : SlotNo) (q : Part) : Prop where
  active : q.eds.active = some n
  event : (q.slot n).event = (p.slot n).event
  phase : q.eds.phase.beforePostroll = true

/-- The event of slot `n` has failed (R147). -/
structure Part.Failed (q : Part) (n : SlotNo) : Prop where
  state : (q.slot n).state = .failed
  phase : q.eds.phase = .idle
  active : q.eds.active = none
  notice : q.noticeSet .eventFailed = true

theorem Part.FailedAs.failed {p q : Part} {r : Reason} {n : SlotNo} (h : p.FailedAs q r) (active : p.eds.active = some n) :
    q.Failed n := by
  obtain ⟨slot, phase, idle, notice⟩ := h n active
  exact ⟨by rw [slot]; rfl, phase, idle, notice⟩

section
variable {p q : Part} {n : SlotNo}

theorem Part.Lives.keepsOrFails {r : Part} (h : p.Lives n q) (k : q.KeepsOrFails r) : p.Lives n r ∨ r.Failed n := by
  rcases k with eds | ⟨-, _, -, failed⟩
  · exact .inl ⟨by rw [eds, h.active], by rw [Part.slot, eds]; exact h.event, by rw [eds, h.phase]⟩
  · exact .inr (failed.failed h.active)

theorem Part.Lives.failEvent (h : p.Lives n q) (r : Reason) : p.Lives n (q.failEvent r) ∨ (q.failEvent r).Failed n :=
  h.keepsOrFails (q.failEvent_keepsOrFails r)

/-- The event record that the engine works on. -/
theorem Part.Lives.activeEvent (h : p.Lives n q) : q.activeEvent = (p.slot n).event := by
  simp only [Part.activeEvent, h.active, h.event]

theorem Part.Lives.enterRoll (h : p.Lives n q) : p.Lives n q.enterRoll := by
  unfold Part.enterRoll
  split
  · exact h
  · exact ⟨h.active, h.event, rfl⟩

theorem Part.Lives.enterHold (h : p.Lives n q) : p.Lives n q.enterHold := by
  cases latch : q.eds.latch with
  | true =>
    rw [q.enterHold_latched latch]
    exact Part.Lives.enterRoll ⟨h.active, h.event, rfl⟩
  | false =>
    rw [q.enterHold_waits latch]
    have eds : q.stillAll.eds = q.eds := Part.eds_of_desk q.stillAll_desk
    exact ⟨(congrArg Eds.active eds).trans h.active, (congrArg (fun e : Eds => (e.slots.get n).event) eds).trans h.event, rfl⟩

theorem Part.Lives.leaveCue (h : p.Lives n q) : p.Lives n q.leaveCue := by
  unfold Part.leaveCue
  split
  · split
    · split
      · exact h.enterHold
      · exact h.enterRoll
    · exact h
  · exact h

theorem Part.Lives.judgeCue (h : p.Lives n q) (d : DeckNo) (point : Nat) (c : CueRecord) :
    p.Lives n (q.judgeCue d point c) ∨ (q.judgeCue d point c).Failed n := by
  unfold Part.judgeCue
  dsimp only
  split
  · split
    · exact .inl (Part.Lives.leaveCue (q := q.setCue d _) ⟨h.active, h.event, h.phase⟩)
    · split
      · exact .inl ⟨h.active, h.event, h.phase⟩
      · exact h.failEvent _
  · exact .inl ⟨h.active, h.event, h.phase⟩

theorem Part.Lives.cueReport (h : p.Lives n q) (d : DeckNo) (f : Frame) (refused : Bool) :
    p.Lives n (q.cueReport d f refused) ∨ (q.cueReport d f refused).Failed n := by
  unfold Part.cueReport
  split
  · split
    · exact .inl h
    · split
      · exact .inl h
      · exact h.judgeCue d _ _
      · split
        · exact h.judgeCue d _ _
        · exact .inl h
  · exact .inl h

/-- A write into the run results of the slot. -/
theorem Part.Lives.modSlot_run (h : p.Lives n q) (f : RunResults → RunResults) :
    p.Lives n (q.modSlot n fun s => { s with run := f s.run }) :=
  ⟨h.active, by rw [Part.modSlot_slot_self]; exact h.event, h.phase⟩

theorem Part.Lives.recordReport (h : p.Lives n q) (d : DeckNo) (f : Frame) (refused : Bool) (label : RawLabel) :
    p.Lives n (q.recordReport d f refused label) ∨ (q.recordReport d f refused label).Failed n := by
  simp only [Part.recordReport, h.active]
  split
  · split
    · exact .inl (h.modSlot_run fun r => { r with recordOn := some (q.recordedField d label) })
    · exact .inl (h.modSlot_run fun r => { r with recordOff := some (q.recordedField d label) })
    · split
      · exact h.failEvent _
      · exact .inl h
    · exact .inl h
  · exact .inl h

/-- A line that goes LOCAL fails the event of its deck before the postroll (R146). -/
theorem Part.Lives.lineChanged (h : p.Lives n q) {d : DeckNo} (event : q.inActiveEvent d = true)
    (line : (q.deck d).line = .inLocal) : q.lineChanged d = q.failEvent .deckLocal := by
  simp only [Part.lineChanged, event, h.phase, line, lineFault, Bool.and_self, if_true]

end

/-! ### With no event ACTIVE -/

theorem Part.cueReport_off {p : Part} (h : p.eds.phase ≠ .cue) (d : DeckNo) (f : Frame) (refused : Bool) :
    p.cueReport d f refused = p := by
  unfold Part.cueReport
  split
  · next cue _ _ => exact absurd cue h
  · rfl

theorem Part.recordReport_idle {p : Part} (h : p.eds.active = none) (d : DeckNo) (f : Frame) (refused : Bool)
    (label : RawLabel) : p.recordReport d f refused label = p := by
  simp only [Part.recordReport, h]

theorem Part.lineChanged_idle {p : Part} (h : p.eds.active = none) (d : DeckNo) : p.lineChanged d = p := by
  simp [Part.lineChanged, Part.inActiveEvent_none h]

/-- After a failure the report of a deck is heard by nobody. -/
theorem Part.Failed.deckReported {p : Part} {n : SlotNo} (h : p.Failed n) (d : DeckNo) (f : Frame) (refused : Bool)
    (label : RawLabel) : p.deckReported d f refused label = p := by
  rw [Part.deckReported, Part.cueReport_off (by simp [h.phase]), Part.recordReport_idle h.active]

/-! ### The tapes -/

@[simp] theorem Part.lineChanged_tapes (p : Part) (d : DeckNo) : (p.lineChanged d).tapes = p.tapes := by
  unfold Part.lineChanged
  split
  · split <;> simp
  · rfl

@[simp] theorem Part.recordReport_tapes (p : Part) (d : DeckNo) (f : Frame) (refused : Bool) (label : RawLabel) :
    (p.recordReport d f refused label).tapes = p.tapes := by
  unfold Part.recordReport
  split
  · rfl
  · split
    · split
      · rfl
      · rfl
      · split <;> simp
      · rfl
    · rfl

end Sys2Proof.Machine
end

section
/-! ## A good deck reply (O38)

The deck record as the reply leaves it, the measurement that the TCU takes from it, and what the event hears of it. -/

namespace Sys2Proof.Machine

open Sys2Proof

/-! ### The deck record (R97, R99) -/

theorem replyReason_eq (r : DeckReply) :
    replyReason r = if r.refused = false then 0 else if 1 ≤ r.reason ∧ r.reason ≤ 4 then r.reason else 4 := by
  unfold replyReason
  cases r.refused <;> rfl

/-- A refusal puts the sent item of its frame back (R99). -/
theorem Deck.putBack_eq (k : Deck) (f : Frame) :
    k.putBack f = { k with
      sentRecord := match f with | .recordOn _ => some false | .recordOff => some true | _ => k.sentRecord
      sent := if f.code ∈ [2, 3, 4, 5, 6, 8, 11] then .unknown else k.sent
      sentSpeed := if f.code = 7 then none else k.sentSpeed } := by
  cases f <;> rfl

/-- The deck record after a good reply (R97, R99). -/
theorem Deck.replied_eq (k : Deck) (f : Frame) (r : DeckReply) :
    k.replied f r = { k with
      timeouts := 0, transport := r.transport, servo := r.servo, inhibit := r.inhibit, isLocal := r.isLocal
      speed := r.speed, lastReply := some { code := f.code, refused := r.refused, reason := replyReason r }
      line := if r.isLocal then .inLocal else .online
      sentRecord := match r.refused, f with
        | true, .recordOn _ => some false
        | true, .recordOff => some true
        | _, _ => k.sentRecord
      sent := if r.refused = true ∧ f.code ∈ [2, 3, 4, 5, 6, 8, 11] then .unknown else k.sent
      sentSpeed := if r.refused = true ∧ f.code = 7 then none else k.sentSpeed } := by
  cases refused : r.refused with
  | true =>
    simp only [Deck.replied, refused, if_true, Deck.putBack_eq, true_and]
    cases f <;> rfl
  | false => simp only [Deck.replied, refused, Bool.false_eq_true, if_false, false_and]

/-! ### The part with the reply written -/

/-- The transaction has ended, the reply is in the deck record, and its notices are set (R97). -/
def Part.replyTold (p : Part) (d : DeckNo) (x : Flight) (r : DeckReply) : Part :=
  ((p.modPort d fun t => { t with flight := none }).modDeck d (·.replied x.frame r)).replyNotices (p.deck d).line r

/-- The TCU has taken its measurement from the reply (R98). -/
def Part.replyMeasured (p : Part) (d : DeckNo) (x : Flight) (r : DeckReply) : Part :=
  (p.replyTold d x r).deckMeasurement d r.label r.source x.field

theorem Part.goodReply_eq (p : Part) (d : DeckNo) (x : Flight) (r : DeckReply) :
    p.goodReply d x r
      = let s := (p.replyMeasured d x r).deckReported d x.frame r.refused r.label
        if (p.deck d).line = (if r.isLocal then LineState.inLocal else .online) then s else s.lineChanged d := rfl

theorem Part.replyNotices_eq (p : Part) (before : LineState) (r : DeckReply) :
    p.replyNotices before r = { p with pku := (p.replyNotices before r).pku } := by
  unfold Part.replyNotices
  dsimp only
  (repeat' split) <;> rfl

/-- Beside the record of the deck, its port and the notices nothing is written. -/
theorem Part.replyTold_eq (p : Part) (d : DeckNo) (x : Flight) (r : DeckReply) :
    p.replyTold d x r = { (p.modPort d fun t => { t with flight := none }).modDeck d (·.replied x.frame r) with
      pku := (p.replyTold d x r).pku } :=
  Part.replyNotices_eq _ _ _

section
variable (p : Part) (d : DeckNo) (x : Flight) (r : DeckReply)

theorem Part.replyTold_eds : (p.replyTold d x r).eds = p.eds := by rw [p.replyTold_eq]; rfl
theorem Part.replyTold_tcu : (p.replyTold d x r).tcu = p.tcu := by rw [p.replyTold_eq]; rfl
theorem Part.replyTold_rtu : (p.replyTold d x r).rtu = p.rtu := by rw [p.replyTold_eq]; rfl
theorem Part.replyTold_sius : (p.replyTold d x r).sius = p.sius := by rw [p.replyTold_eq]; rfl
theorem Part.replyTold_gtu : (p.replyTold d x r).gtu = p.gtu := by rw [p.replyTold_eq]; rfl
theorem Part.replyTold_chu : (p.replyTold d x r).chu = p.chu := by rw [p.replyTold_eq]; rfl
theorem Part.replyTold_counting : (p.replyTold d x r).counting = p.counting := by rw [p.replyTold_eq]; rfl

theorem Part.replyTold_flight : ((p.replyTold d x r).port d).flight = none := by
  rw [p.replyTold_eq]
  exact congrArg Port.flight (Table.get_modify_self p.ports d _)

theorem Part.replyTold_deck : (p.replyTold d x r).deck d = (p.deck d).replied x.frame r := by
  rw [p.replyTold_eq]
  exact Table.get_modify_self p.decks d _

theorem Part.replyTold_deck_ne {e : DeckNo} (h : e ≠ d) : (p.replyTold d x r).deck e = p.deck e := by
  rw [p.replyTold_eq]
  exact Table.get_modify_ne p.decks _ h

/-- DECK_LOCAL at an entry into LOCAL, DECK_REFUSED with a refusal (R97, R99). -/
theorem Part.replyTold_noticeSet (m : Notice) :
    (p.replyTold d x r).noticeSet m = true ↔ p.noticeSet m = true
      ∨ (m = .deckLocal ∧ r.isLocal = true ∧ (p.deck d).line ≠ .inLocal) ∨ (m = .deckRefused ∧ r.refused = true) := by
  let q := (p.modPort d fun t => { t with flight := none }).modDeck d (·.replied x.frame r)
  have same : q.noticeSet m = p.noticeSet m := rfl
  show (q.replyNotices (p.deck d).line r).noticeSet m = true ↔ _
  rw [← same]
  unfold Part.replyNotices
  dsimp only
  split <;> split <;> simp_all [Part.raise_noticeSet_eq] <;> tauto

theorem Part.replyTold_role (e : DeckNo) : ((p.replyTold d x r).deck e).role = (p.deck e).role := by
  by_cases same : e = d
  · subst same
    rw [p.replyTold_deck, Deck.replied_eq]
  · rw [p.replyTold_deck_ne d x r same]

theorem Part.replyTold_recorder : (p.replyTold d x r).recorder = p.recorder := by
  simp only [Part.recorder, p.replyTold_role]

end

/-! ### The measurement (R64 to R68) -/

/-- A position record after a usable deck reply of this position, this many fields old. -/
def PosRec.replyMeasured (r : PosRec) (day position elapsed : Nat) (v : Int) (src : TcSource) : PosRec :=
  if r.preference = .deckFirst ∨ 2 < r.vitcAge then
    { r with deckAge := 0, tcSource := src }.replaced day position elapsed v .deck
  else { r with deckAge := 0, tcSource := src }

/-- The record that a deck reply leaves: as it was where the TCU discards the measurement (R64). -/
def Part.replyRecord (p : Part) (d : DeckNo) (label : RawLabel) (src : TcSource) (field : Nat) : PosRec :=
  match p.convertsReply d, readLabel p.counting label with
  | true, some (l, _) => (p.deck d).position.replyMeasured p.counting.day (labelPosition p.counting l)
      (p.rtu.elapsedFields field) (motionOf (p.deck d).transport (p.deck d).speed) src
  | _, _ => (p.deck d).position

/-- The part with the record written that a deck reply leaves, before the CHU hears of it. -/
def Part.replyRecorded (p : Part) (d : DeckNo) (label : RawLabel) (src : TcSource) (field : Nat) : Part :=
  p.modDeck d fun k => { k with position := p.replyRecord d label src field }

/-- A deck record that is written as it stands changes nothing. -/
theorem Part.modDeck_stays {p : Part} {d : DeckNo} {f : Deck → Deck} (h : f (p.deck d) = p.deck d) : p.modDeck d f = p := by
  have decks : p.decks.modify d f = p.decks := by
    refine Table.ext_get fun e => ?_
    by_cases same : e = d
    · subst same
      rw [Table.get_modify_self]
      exact h
    · rw [Table.get_modify_ne _ _ same]
  exact congrArg (fun t : Table Deck 4 => { p with decks := t }) decks

/-- A measurement writes the record of its deck, and the CHU hears of one that replaces it (R63). -/
theorem Part.deckMeasurement_cases (p : Part) (d : DeckNo) (label : RawLabel) (src : TcSource) (field : Nat) :
    p.deckMeasurement d label src field = p.replyRecorded d label src field
    ∨ p.deckMeasurement d label src field = (p.replyRecorded d label src field).positionMeasured d := by
  unfold Part.deckMeasurement Part.replyRecorded Part.replyRecord
  cases p.convertsReply d with
  | false => exact .inl (Part.modDeck_stays rfl).symm
  | true =>
    cases readLabel p.counting label with
    | none => exact .inl (Part.modDeck_stays rfl).symm
    | some l =>
      by_cases used : (p.deck d).position.preference = .deckFirst ∨ 2 < (p.deck d).position.vitcAge
      · exact .inr (by simp only [if_true, Part.useDeckReply, PosRec.replyMeasured, used])
      · exact .inl (by simp only [if_true, Part.useDeckReply, PosRec.replyMeasured, used, if_false])

theorem Part.deckMeasurement_steers (p : Part) (d : DeckNo) (label : RawLabel) (src : TcSource) (field : Nat) :
    (p.replyRecorded d label src field).Steers (p.deckMeasurement d label src field) := by
  rcases p.deckMeasurement_cases d label src field with eq | eq <;> rw [eq]
  · exact .refl _
  · exact (Part.Steers.refl _).positionMeasured d

theorem Part.deckMeasurement_keepsOrFails (p : Part) (d : DeckNo) (label : RawLabel) (src : TcSource) (field : Nat) :
    p.KeepsOrFails (p.deckMeasurement d label src field) := by
  rcases p.deckMeasurement_cases d label src field with eq | eq <;> rw [eq]
  · exact .inl rfl
  · exact (p.replyRecorded d label src field).positionMeasured_keepsOrFails d

theorem Part.deckMeasurement_tapes (p : Part) (d : DeckNo) (label : RawLabel) (src : TcSource) (field : Nat) :
    (p.deckMeasurement d label src field).tapes = (p.replyRecorded d label src field).tapes := by
  rcases p.deckMeasurement_cases d label src field with eq | eq <;> rw [eq]
  exact Part.positionMeasured_tapes _ d

/-- Where no chase of the deck is computed for, the record is written and nothing else. -/
theorem Part.deckMeasurement_unchased (p : Part) {d : DeckNo} (h : (p.deck d).chase.state.computing = false)
    (label : RawLabel) (src : TcSource) (field : Nat) :
    p.deckMeasurement d label src field = p.replyRecorded d label src field := by
  rcases p.deckMeasurement_cases d label src field with eq | eq
  · exact eq
  · refine eq.trans (Part.positionMeasured_idle _ d ?_)
    rw [Part.replyRecorded, Part.modDeck_deck_self]
    exact h

/-! ### The reply as a whole -/

/-- After the writes of R97 and the record of the tape, a good reply only moves events and chases. -/
theorem Part.goodReply_steers (p : Part) (d : DeckNo) (x : Flight) (r : DeckReply) :
    ((p.replyTold d x r).replyRecorded d r.label r.source x.field).Steers (p.goodReply d x r) := by
  have reported := (Part.deckMeasurement_steers (p.replyTold d x r) d r.label r.source x.field).deckReported d x.frame
    r.refused r.label
  exact reported.ite (reported.lineChanged d)

end Sys2Proof.Machine
end

section
/-! ## What a good deck reply does to the event (O38) -/

namespace Sys2Proof.Machine

open Sys2Proof

/-! ### The last-sent transport -/

/-- Outside CUE the last-sent transport is what the put-back leaves (R99). -/
theorem Part.goodReply_sent (p : Part) (d : DeckNo) (x : Flight) (r : DeckReply) (h : p.eds.phase ≠ .cue) :
    ((p.goodReply d x r).deck d).sent = ((p.deck d).replied x.frame r).sent := by
  have measured : (p.replyMeasured d x r).eds.phase ≠ .cue := by
    have keeps : (p.replyTold d x r).KeepsOrFails (p.replyMeasured d x r) := Part.deckMeasurement_keepsOrFails ..
    exact keeps.phase_ne (by rw [p.replyTold_eds]; exact h) nofun
  have tapes : (p.goodReply d x r).tapes = (p.replyMeasured d x r).tapes := by
    rw [p.goodReply_eq, Part.deckReported, Part.cueReport_off measured]
    dsimp only
    (repeat' split) <;> simp
  have sent := Deck.sent_of_undemanded (Part.undemanded_of_tapes
    (tapes.trans (Part.deckMeasurement_tapes (p.replyTold d x r) d r.label r.source x.field)) d)
  rw [Part.replyRecorded, Part.modDeck_deck_self, p.replyTold_deck] at sent
  exact sent

/-! ### A deck that goes LOCAL (R146) -/

/-- A cue is judged by nothing but a deck that stands still (R135). -/
theorem Part.cueReport_unjudged {p : Part} {d : DeckNo} (h : p.eds.phase = .cue → (p.deck d).transport ≠ .still) (f : Frame)
    (refused : Bool) : p.cueReport d f refused = p ∨ ∃ c, p.cueReport d f refused = p.setCue d c := by
  unfold Part.cueReport
  split
  · next cue _ _ =>
    have unjudged (point : Nat) (c : CueRecord) : p.judgeCue d point c = p.setCue d c :=
      if_neg fun still => h cue still.1
    split
    · exact .inl rfl
    · split
      · exact .inl rfl
      · exact .inr ⟨_, unjudged _ _⟩
      · split
        · exact .inr ⟨_, unjudged _ _⟩
        · exact .inl rfl
  · exact .inl rfl

/-- A reply that refuses no RECORD_ON of a RECORD leaves the event as it is, but for a recorded field (R142). -/
theorem Part.Lives.recordReport_unrefused {p q : Part} {n : SlotNo} (h : p.Lives n q) (d : DeckNo) {f : Frame}
    (other : q.eds.phase = .record → ∀ tracks, f ≠ .recordOn tracks) (refused : Bool) (label : RawLabel) :
    p.Lives n (q.recordReport d f refused label) := by
  simp only [Part.recordReport, h.active]
  split
  · split
    · exact h.modSlot_run fun r => { r with recordOn := some (q.recordedField d label) }
    · exact h.modSlot_run fun r => { r with recordOff := some (q.recordedField d label) }
    · next tracks =>
      rw [if_neg fun record => other record tracks rfl]
      exact h
    · exact h
  · exact h

section
variable {p : Part} {d : DeckNo} {n : SlotNo} (x : Flight) {r : DeckReply}

/-- The event as the reply finds it, once the reply is written. -/
theorem Part.replyTold_lives (active : p.eds.active = some n) (phase : p.eds.phase.beforePostroll = true) :
    p.Lives n (p.replyTold d x r) := by
  have eds := p.replyTold_eds d x r
  exact ⟨by rw [eds, active], by rw [Part.slot, eds]; rfl, by rw [eds, phase]⟩

/-- The measurement and the report of the deck leave the event alive or failed. -/
theorem Part.replyReported_lives (active : p.eds.active = some n) (phase : p.eds.phase.beforePostroll = true) :
    let s := (p.replyMeasured d x r).deckReported d x.frame r.refused r.label
    p.Lives n s ∨ s.Failed n := by
  intro s
  have measured : (p.replyTold d x r).KeepsOrFails (p.replyMeasured d x r) := Part.deckMeasurement_keepsOrFails ..
  rcases (Part.replyTold_lives x active phase).keepsOrFails measured with lives | failed
  · rcases lives.cueReport d x.frame r.refused with lives | failed
    · exact lives.recordReport d _ _ _
    · exact .inr (by rw [show s = _ from Part.recordReport_idle failed.active ..]; exact failed)
  · exact .inr (by rw [show s = _ from failed.deckReported ..]; exact failed)

/-- It is still alive where neither a chase nor a cue nor a record frame is judged by the reply. -/
theorem Part.replyReported_lives_unjudged (active : p.eds.active = some n) (phase : p.eds.phase.beforePostroll = true)
    (unchased : (p.deck d).chase.state.computing = false) (uncued : p.eds.phase = .cue → r.transport ≠ .still)
    (unrefused : p.eds.phase = .record → ∀ tracks, x.frame ≠ .recordOn tracks) :
    p.Lives n ((p.replyMeasured d x r).deckReported d x.frame r.refused r.label) := by
  have told := p.replyTold_deck d x r
  have measured : p.replyMeasured d x r = (p.replyTold d x r).replyRecorded d r.label r.source x.field :=
    Part.deckMeasurement_unchased _ (by rw [told, Deck.replied_eq]; exact unchased) _ _ _
  have eds : (p.replyMeasured d x r).eds = p.eds := by
    rw [measured]
    exact p.replyTold_eds d x r
  have transport : ((p.replyMeasured d x r).deck d).transport = r.transport := by
    rw [measured, Part.replyRecorded, Part.modDeck_deck_self, told, Deck.replied_eq]
  have lives : p.Lives n (p.replyMeasured d x r) := ⟨by rw [eds, active], by rw [Part.slot, eds]; rfl, by rw [eds, phase]⟩
  have unjudged : (p.replyMeasured d x r).eds.phase = .cue → ((p.replyMeasured d x r).deck d).transport ≠ .still := by
    rw [eds, transport]
    exact uncued
  rw [Part.deckReported]
  rcases Part.cueReport_unjudged unjudged x.frame r.refused with same | ⟨c, set⟩
  · rw [same]
    exact lives.recordReport_unrefused d (by rw [eds]; exact unrefused) _ _
  · rw [set]
    refine Part.Lives.recordReport_unrefused (q := (p.replyMeasured d x r).setCue d c)
      ⟨lives.active, lives.event, lives.phase⟩ d ?_ _ _
    show (p.replyMeasured d x r).eds.phase = .record → _
    rw [eds]
    exact unrefused

/-- The line state changed signal of a deck that goes LOCAL fails the event that is still alive (R146). -/
theorem Part.goodReply_local (event : p.inActiveEvent d = true) (active : p.eds.active = some n) (isLocal : r.isLocal = true)
    (line : (p.deck d).line ≠ .inLocal)
    (lives : p.Lives n ((p.replyMeasured d x r).deckReported d x.frame r.refused r.label)) :
    p.goodReply d x r
      = ((p.replyMeasured d x r).deckReported d x.frame r.refused r.label).failEvent .deckLocal := by
  have steers : ((p.replyTold d x r).replyRecorded d r.label r.source x.field).Steers
      ((p.replyMeasured d x r).deckReported d x.frame r.refused r.label) :=
    (Part.deckMeasurement_steers (p.replyTold d x r) d _ _ _).deckReported d _ _ _
  have own := p.replyTold_deck d x r
  rw [p.goodReply_eq]
  dsimp only
  rw [if_neg (by simpa [isLocal] using line)]
  refine lives.lineChanged ?_ ?_
  · have role := steers.role d
    rw [Part.replyRecorded, Part.modDeck_deck_self, own, Deck.replied_eq] at role
    have before : p.activeEvent = (p.slot n).event := by simp only [Part.activeEvent, active]
    rw [← event, Part.inActiveEvent, Part.inActiveEvent, lives.activeEvent, before, role]
  · rw [steers.line d, Part.replyRecorded, Part.modDeck_deck_self, own, Deck.replied_eq]
    simp [isLocal]

/-- A deck of the active event that goes LOCAL before the postroll fails it (R146). -/
theorem Part.goodReply_localFails (event : p.inActiveEvent d = true) (active : p.eds.active = some n)
    (phase : p.eds.phase.beforePostroll = true) (isLocal : r.isLocal = true) (line : (p.deck d).line ≠ .inLocal) :
    (p.goodReply d x r).Failed n := by
  rcases Part.replyReported_lives (r := r) x active phase with lives | failed
  · rw [Part.goodReply_local x event active isLocal line lives]
    exact (Part.failEvent_failedAs _ _).failed lives.active
  · rw [p.goodReply_eq]
    dsimp only
    rw [if_neg (by simpa [isLocal] using line), Part.lineChanged_idle failed.active]
    exact failed

end

/-! ### The recorder's replies to record frames (R142) -/

/-- What the line state changed signal can do: nothing, or fail the event. -/
theorem Part.lineChanged_cases (p : Part) (d : DeckNo) : p.lineChanged d = p ∨ ∃ why, p.lineChanged d = p.failEvent why := by
  unfold Part.lineChanged
  split
  · split
    · exact .inr ⟨_, rfl⟩
    · exact .inl rfl
  · exact .inl rfl

/-- The recorded fields of the active slot outlast a failure. -/
theorem Part.lineChanged_recorded (p : Part) (d : DeckNo) {n : SlotNo} (active : p.eds.active = some n) :
    ((p.lineChanged d).slot n).run.recordOn = (p.slot n).run.recordOn
    ∧ ((p.lineChanged d).slot n).run.recordOff = (p.slot n).run.recordOff := by
  rcases p.lineChanged_cases d with same | ⟨why, failed⟩
  · rw [same]
    exact ⟨rfl, rfl⟩
  · rw [failed, p.failEvent_slot why active]
    exact ⟨rfl, rfl⟩

/-- So they outlast the line state changed signal of a reply. -/
theorem Part.goodReply_recorded (p : Part) (d : DeckNo) (x : Flight) (r : DeckReply) {n : SlotNo}
    (active : ((p.replyMeasured d x r).deckReported d x.frame r.refused r.label).eds.active = some n) :
    ((p.goodReply d x r).slot n).run.recordOn
        = (((p.replyMeasured d x r).deckReported d x.frame r.refused r.label).slot n).run.recordOn
    ∧ ((p.goodReply d x r).slot n).run.recordOff
        = (((p.replyMeasured d x r).deckReported d x.frame r.refused r.label).slot n).run.recordOff := by
  rw [p.goodReply_eq]
  dsimp only
  generalize (if r.isLocal then LineState.inLocal else .online) = line
  split
  · exact ⟨rfl, rfl⟩
  · exact Part.lineChanged_recorded _ d active

theorem Part.role_of_recorder {p : Part} {d : DeckNo} (h : p.recorder = some d) : (p.deck d).role = .recorder := by
  simpa using List.find?_some h

section
variable {p : Part} {d : DeckNo} {n : SlotNo} (x : Flight) (r : DeckReply) (active : p.eds.active = some n)
  (recorder : p.recorder = some d) (phase : p.eds.phase ≠ .cue) (unchased : (p.deck d).chase.state.computing = false)
include unchased

/-- Of a deck that has no chase to compute for, the reply is written into the deck record and nothing else. -/
theorem Part.replyMeasured_unchased :
    p.replyMeasured d x r = (p.replyTold d x r).replyRecorded d r.label r.source x.field :=
  Part.deckMeasurement_unchased _ (by rw [p.replyTold_deck, Deck.replied_eq]; exact unchased) _ _ _

theorem Part.replyMeasured_eds : (p.replyMeasured d x r).eds = p.eds := by
  rw [Part.replyMeasured_unchased x r unchased]
  exact p.replyTold_eds d x r

theorem Part.replyMeasured_recorder : (p.replyMeasured d x r).recorder = p.recorder := by
  rw [Part.replyMeasured_unchased x r unchased, ← p.replyTold_recorder d x r]
  have role (e : DeckNo) : (((p.replyTold d x r).replyRecorded d r.label r.source x.field).deck e).role
      = ((p.replyTold d x r).deck e).role :=
    Table.get_eq_of_map_eq (Table.map_modify Deck.role (p.replyTold d x r).decks d
      (fun k => { k with position := (p.replyTold d x r).replyRecord d r.label r.source x.field }) fun _ => rfl) e
  simp only [Part.recorder, role]

/-- The position that is recorded for a record frame (R142). -/
theorem Part.replyMeasured_recordedField (settled : p.tcu.settled = true) (tape : r.transport ≠ .noTape) {y : Label × Bool}
    (label : readLabel p.counting r.label = some y) :
    (p.replyMeasured d x r).recordedField d r.label
      = (labelPosition p.counting y.1 + 2 * (p.deck d).params.recordLead) % p.counting.day := by
  have counting : ((p.replyTold d x r).replyRecorded d r.label r.source x.field).counting = p.counting :=
    p.replyTold_counting d x r
  have tcu : ((p.replyTold d x r).replyRecorded d r.label r.source x.field).tcu = p.tcu := p.replyTold_tcu d x r
  have own := (p.replyTold d x r).modDeck_deck_self d
    fun k => { k with position := (p.replyTold d x r).replyRecord d r.label r.source x.field }
  rw [p.replyTold_deck, Deck.replied_eq] at own
  have converts : ((p.replyTold d x r).replyRecorded d r.label r.source x.field).convertsReply d = true := by
    rw [Part.convertsReply, tcu, settled, Part.replyRecorded, own]
    simpa using tape
  rw [Part.replyMeasured_unchased x r unchased, Part.recordedField, converts, counting, label, Part.replyRecorded, own]

include phase

/-- Outside CUE only the report to a record frame of the recorder is read. -/
theorem Part.replyReported_uncued :
    (p.replyMeasured d x r).deckReported d x.frame r.refused r.label
      = (p.replyMeasured d x r).recordReport d x.frame r.refused r.label := by
  rw [Part.deckReported, Part.cueReport_off (by rw [Part.replyMeasured_eds x r unchased]; exact phase)]

include active recorder

/-- A DONE to RECORD_ON writes where record began. -/
theorem Part.goodReply_recordOn {tracks : BitVec 4} (frame : x.frame = .recordOn tracks) (done : r.refused = false) :
    ((p.goodReply d x r).slot n).run.recordOn = some ((p.replyMeasured d x r).recordedField d r.label) := by
  have eds := Part.replyMeasured_eds x r unchased
  have role := Part.role_of_recorder ((Part.replyMeasured_recorder x r unchased).trans recorder)
  have reported : (p.replyMeasured d x r).deckReported d x.frame r.refused r.label
      = (p.replyMeasured d x r).modSlot n fun s =>
        { s with run := { s.run with recordOn := some ((p.replyMeasured d x r).recordedField d r.label) } } := by
    rw [Part.replyReported_uncued x r phase unchased]
    simp only [Part.recordReport, eds, active, role, if_true, frame, done]
  rw [(p.goodReply_recorded d x r (by rw [reported]; exact (congrArg Eds.active eds).trans active)).1, reported,
    Part.modSlot_slot_self]

/-- A DONE to RECORD_OFF writes where record ended. -/
theorem Part.goodReply_recordOff (frame : x.frame = .recordOff) (done : r.refused = false) :
    ((p.goodReply d x r).slot n).run.recordOff = some ((p.replyMeasured d x r).recordedField d r.label) := by
  have eds := Part.replyMeasured_eds x r unchased
  have role := Part.role_of_recorder ((Part.replyMeasured_recorder x r unchased).trans recorder)
  have reported : (p.replyMeasured d x r).deckReported d x.frame r.refused r.label
      = (p.replyMeasured d x r).modSlot n fun s =>
        { s with run := { s.run with recordOff := some ((p.replyMeasured d x r).recordedField d r.label) } } := by
    rw [Part.replyReported_uncued x r phase unchased]
    simp only [Part.recordReport, eds, active, role, if_true, frame, done]
  rw [(p.goodReply_recorded d x r (by rw [reported]; exact (congrArg Eds.active eds).trans active)).2, reported,
    Part.modSlot_slot_self]

/-- A refusal of RECORD_ON fails the event in RECORD. -/
theorem Part.goodReply_recordRefused {tracks : BitVec 4} (frame : x.frame = .recordOn tracks) (refused : r.refused = true)
    (record : p.eds.phase = .record) : p.goodReply d x r = (p.replyMeasured d x r).failEvent .recordRefused := by
  have eds := Part.replyMeasured_eds x r unchased
  have role := Part.role_of_recorder ((Part.replyMeasured_recorder x r unchased).trans recorder)
  have reported : (p.replyMeasured d x r).recordReport d x.frame r.refused r.label
      = (p.replyMeasured d x r).failEvent .recordRefused := by
    simp only [Part.recordReport, eds, active, role, if_true, frame, refused, record]
  rw [p.goodReply_eq, Part.replyReported_uncued x r phase unchased, reported]
  dsimp only
  rw [Part.lineChanged_idle (Part.failEvent_active _ _), ite_self]

end

/-! ### The record of the tape (R64 to R68) -/

section
variable {p : Part} {d : DeckNo} (x : Flight) {r : DeckReply}

theorem Part.goodReply_position :
    ((p.goodReply d x r).deck d).position = (p.replyTold d x r).replyRecord d r.label r.source x.field := by
  rw [(p.goodReply_steers d x r).position d, Part.replyRecorded, Part.modDeck_deck_self]

theorem Part.replyTold_convertsReply :
    (p.replyTold d x r).convertsReply d = (p.tcu.settled && r.transport != .noTape) := by
  rw [Part.convertsReply, p.replyTold_tcu, p.replyTold_deck, Deck.replied_eq]

/-- A measurement that the TCU discards leaves the record as it was (R64). -/
theorem Part.goodReply_position_discarded
    (h : p.tcu.settled = false ∨ r.transport = .noTape ∨ readLabel p.counting r.label = none) :
    ((p.goodReply d x r).deck d).position = (p.deck d).position := by
  have kept : ((p.replyTold d x r).deck d).position = (p.deck d).position := by rw [p.replyTold_deck, Deck.replied_eq]
  rw [Part.goodReply_position, Part.replyRecord, Part.replyTold_convertsReply, p.replyTold_counting]
  rcases h with unsettled | tapeless | unread
  · rw [unsettled]
    exact kept
  · rw [tapeless, bne_self_eq_false, Bool.and_false]
    exact kept
  · rw [unread]
    split
    · next none_some => exact absurd none_some nofun
    · exact kept

/-- The record after one that it takes (R65 to R68). -/
theorem Part.goodReply_position_taken (settled : p.tcu.settled = true) (tape : r.transport ≠ .noTape) {y : Label × Bool}
    (label : readLabel p.counting r.label = some y) :
    ((p.goodReply d x r).deck d).position
      = (p.deck d).position.replyMeasured p.counting.day (labelPosition p.counting y.1) (p.rtu.elapsedFields x.field)
          (motionOf r.transport r.speed) r.source := by
  rw [Part.goodReply_position, Part.replyRecord, Part.replyTold_convertsReply, p.replyTold_counting, label, settled,
    bne_iff_ne.2 tape, p.replyTold_deck, Deck.replied_eq, p.replyTold_rtu]
  rfl

end

/-! ### The statement -/

theorem ChaseState.computing_eq_false {c : ChaseState} (h : c = .off ∨ c = .lost) : c.computing = false := by
  rcases h with rfl | rfl <;> rfl

/-- Settles O38: the writes by the record after a reply, what the event hears by whether it is alive when it hears. -/
theorem deckReplyTaken : Obligations.DeckReplyTaken := by
  intro s d r own k c eds v
  refine ⟨fun f rest sending => ?ends, fun empty => ?nothing, fun unawaited => ?discarded, fun x flight quiet => ?taken⟩
  case ends =>
    have ended : (s.part.port d).sendEnd = _ := (Port.sendEnd_spec _).2 f rest sending
    refine congrArg (fun t : Table Port 4 => Host.Outcome.next { s with part := { s.part with ports := t } }) ?_
    exact congrArg (s.part.ports.set d) ended
  case nothing =>
    have same : (s.part.port d).sendEnd = s.part.port d := (Port.sendEnd_spec _).1 empty
    have ports : s.part.ports.modify d Port.sendEnd = s.part.ports := by
      refine Table.ext_get fun e => ?_
      by_cases here : e = d
      · subst here
        rw [Table.get_modify_self]
        exact same
      · rw [Table.get_modify_ne _ _ here]
    exact congrArg (fun t : Table Port 4 => Host.Outcome.next { s with part := { s.part with ports := t } }) ports
  case discarded =>
    have receiving : (s.part.port d).receiving = none := by
      unfold Port.receiving
      split
      · next turned => exact unawaited.resolve_right fun sends => sends turned
      · rfl
    show execDeckReplyGood d r s = _
    rw [execDeckReplyGood, receiving]
    rfl
  case taken =>
    have receiving : (s.part.port d).receiving = some x := (if_pos quiet).trans flight
    have leads : exec (.deckReplyGood d r) s = .next { s with part := s.part.goodReply d x r } := by
      show execDeckReplyGood d r s = _
      rw [execDeckReplyGood, receiving]
      rfl
    have steers := s.part.goodReply_steers d x r
    have deck := steers.deck d
    rw [Part.replyRecorded, Part.modDeck_deck_self, s.part.replyTold_deck d x r, Deck.replied_eq, replyReason_eq] at deck
    have beforePostroll (phase : eds.phase ∈ [Phase.cue, .hold, .roll, .record]) : eds.phase.beforePostroll = true := by
      revert phase
      cases eds.phase <;> decide
    refine ⟨s.part.goodReply d x r, leads, (steers.flight d).trans (s.part.replyTold_flight d x r),
      (congrArg Deck.timeouts deck :), (congrArg Deck.transport deck :), (congrArg Deck.servo deck :),
      (congrArg Deck.inhibit deck :), (congrArg Deck.isLocal deck :), (congrArg Deck.speed deck :),
      (congrArg Deck.line deck :), (congrArg Deck.lastReply deck :), ?refused, ?entersLocal, ?sentRecord, fun uncued => ?sent,
      (congrArg Deck.sentSpeed deck :), steers.rtu.trans (s.part.replyTold_rtu d x r),
      steers.sius.trans (s.part.replyTold_sius d x r), steers.gtu.trans (s.part.replyTold_gtu d x r), fun e other => ?other,
      Part.goodReply_position_discarded x, fun settled tape y label => ?measured,
      fun n active event isLocal line phase => ?localFails, fun n active recorder uncued unchased => ?recorder⟩
    case refused =>
      rw [steers.notice .deckRefused rfl]
      exact (s.part.replyTold_noticeSet d x r .deckRefused).trans (by simp)
    case entersLocal =>
      rw [steers.notice .deckLocal rfl]
      exact (s.part.replyTold_noticeSet d x r .deckLocal).trans (by simp [own])
    case sentRecord =>
      refine (congrArg Deck.sentRecord deck :).trans ?_
      cases r.refused <;> cases x.frame <;> rfl
    case sent => rw [s.part.goodReply_sent d x r uncued, Deck.replied_eq]
    case other =>
      rw [steers.position e, Part.replyRecorded, Part.modDeck_deck_ne _ _ other, s.part.replyTold_deck_ne d x r other]
    case measured =>
      intro gone seen
      have motion : motionOf r.transport r.speed = v := by
        dsimp only [v]
        cases r.transport <;> rfl
      have elapsed : v * (s.part.rtu.elapsedFields x.field : Int) = gone := by rw [Rtu.elapsedFields_cast]
      rw [Part.goodReply_position_taken x settled tape label, motion]
      refine ⟨fun used => ?_, fun prefers recent => ?_⟩
      · rw [PosRec.replyMeasured, if_pos used, PosRec.replaced, moved, elapsed]
      · refine if_neg ?_
        rw [prefers]
        simpa using recent
    case localFails =>
      have failed := Part.goodReply_localFails x event active (beforePostroll phase) isLocal line
      refine ⟨failed.state, failed.phase, failed.notice, fun unchased unjudged unrefused => ?_⟩
      have lives := Part.replyReported_lives_unjudged x active (beforePostroll phase)
        (ChaseState.computing_eq_false unchased) unjudged unrefused
      rw [Part.goodReply_local x event active isLocal line lives, Part.failEvent_slot _ _ lives.active]
      rfl
    case recorder =>
      have unchased := ChaseState.computing_eq_false unchased
      refine ⟨fun settled tape y label done => ⟨fun tracks frame => ?_, fun frame => ?_⟩, fun tracks frame refused record => ?_⟩
      · rw [Part.goodReply_recordOn x r active recorder uncued unchased frame done,
          Part.replyMeasured_recordedField x r unchased settled tape label]
      · rw [Part.goodReply_recordOff x r active recorder uncued unchased frame done,
          Part.replyMeasured_recordedField x r unchased settled tape label]
      · rw [Part.goodReply_recordRefused x r active recorder uncued unchased frame refused record]
        have measured := Part.replyMeasured_eds x r unchased
        have before := (congrArg Eds.active measured).trans active
        obtain ⟨slot, idle, -, notice⟩ := (s.part.replyMeasured d x r).failEvent_failedAs .recordRefused n before
        refine ⟨by rw [slot]; rfl, by rw [slot]; rfl, idle, notice, ?_⟩
        exact Part.failEvent_wantRecord _ _ (by simp [before])
          ((Part.replyMeasured_recorder x r unchased).trans recorder)

end Sys2Proof.Machine
end

section
/-! ## Laws: one chase computation (R107 to R115)

The error, the speed law, and what a computation leaves: the chase items of its deck, its wanted speed, and the event. -/

namespace Sys2Proof.Machine

open Sys2Proof

/-! ### The error and the speed law (R109, R110) -/

theorem Counting.day_cases (c : Counting) :
    (c.dayFrames = 2592000 ∧ c.day = 5184000) ∨ (c.dayFrames = 2589408 ∧ c.day = 5178816)
    ∨ (c.dayFrames = 2160000 ∧ c.day = 4320000) := by
  obtain ⟨std, drop⟩ := c
  cases std <;> cases drop <;> decide

/-- The error lies in the half-day either side, and is 0 where the offsets agree. -/
theorem chaseError_spec (c : Counting) (player recorder playerIn recorderIn : Nat) :
    let e := chaseError c player recorder playerIn recorderIn
    (-(c.dayFrames : Int) ≤ e) ∧ e < c.dayFrames
    ∧ (e = 0 ↔ ((player : Int) - playerIn) % c.day = ((recorder : Int) - recorderIn) % c.day) := by
  intro e
  simp only [e, chaseError, Counting.sym]
  rcases c.day_cases with ⟨frames, day⟩ | ⟨frames, day⟩ | ⟨frames, day⟩
  all_goals
    rw [frames, day]
    omega

/-- The quarter is rounded to the nearest, halves away from zero. -/
theorem roundQuarter_spec (y : Int) :
    (4 * roundQuarter y - y).natAbs ≤ 2
    ∧ ((4 * roundQuarter y - y).natAbs = 2 → y.natAbs ≤ (4 * roundQuarter y).natAbs) := by
  unfold roundQuarter
  split <;> omega

theorem speedLaw_eq (q : ChaseParams) (e : Int) :
    speedLaw q e = 256 - max (-(q.slew : Int)) (min q.slew (roundQuarter (e * q.gain))) := by
  rw [speedLaw, clampInt_eq (by omega)]

/-! ### The lock judgement (R111) -/

section
variable (q : ChaseParams) (f : FieldId) (e : Int) (k : ChaseItems)

/-- The lock judgement writes the lock count and the state alone. -/
theorem lockJudged_error_speed : (lockJudged q f e k).error = k.error ∧ (lockJudged q f e k).speed = k.speed := by
  unfold lockJudged
  (repeat' split) <;> exact ⟨rfl, rfl⟩

variable {k}

theorem lockJudged_pullIn_zero (state : k.state = .pullIn) :
    lockJudged q .one 0 k = { k with
      lockCount := min (k.lockCount + 1) q.lockRun, state := if q.lockRun ≤ k.lockCount + 1 then .locked else .pullIn } := by
  simp only [lockJudged, state, if_true]

theorem lockJudged_pullIn_off {e : Int} (state : k.state = .pullIn) (off : e ≠ 0) :
    lockJudged q .one e k = { k with lockCount := 0 } := by
  simp only [lockJudged, state, off, if_false]

/-- In field 2 the count stands. -/
theorem lockJudged_pullIn_two (state : k.state = .pullIn) : lockJudged q .two e k = k := by
  simp only [lockJudged, state]

theorem lockJudged_locked (state : k.state = .locked) (near : e.natAbs < q.unlock) : lockJudged q f e k = k := by
  simp only [lockJudged, state, near, if_true]

theorem lockJudged_unlocked (state : k.state = .locked) (far : q.unlock ≤ e.natAbs) :
    lockJudged q f e k = { k with lockCount := 0, state := .pullIn } := by
  simp only [lockJudged, state, Nat.not_lt.2 far, if_false]

end

/-! ### What a computation leaves -/

/-- The engine after a computation that fails the event for a reason, of which the deck's chase stops. -/
def ChaseFails (eds : Eds) (why : Reason) (j : ChaseItems) (after : Eds) : Prop :=
  ∀ n, eds.active = some n →
    after.slots.get n = { eds.slots.get n with state := .failed, run := { (eds.slots.get n).run with reason := why } }
    ∧ after.phase = .idle ∧ j.state = .off

/-- The engine's event goes on. -/
def ChaseGoesOn (eds after : Eds) : Prop := after.phase = eds.phase ∧ after.active = eds.active

/-- What a computation with error `e` in a field of identity `f` leaves of the chase items `k` and of the engine: the items
`j`, the wanted speed, and the engine after it. It is not made with an invalid record, nor for a chase that is OFF or LOST
(R108, R110 to R115). -/
def ChaseOutcome (q : ChaseParams) (watch : Bool) (k : ChaseItems) (eds : Eds) (made : Bool) (f : FieldId) (e : Int)
    (j : ChaseItems) (want : Int) (after : Eds) : Prop :=
  let apart : Prop := watch = true ∧ q.sync < e.natAbs
  (made = false ∨ k.state = .off ∨ k.state = .lost → j = k ∧ ChaseGoesOn eds after)
  ∧ (made = true → k.state = .pullIn ∨ k.state = .locked →
    (q.window < e.natAbs → eds.phase = .roll ∨ eds.phase = .record → ChaseFails eds .chaseRange j after)
    ∧ (q.window < e.natAbs → eds.phase ≠ .roll → eds.phase ≠ .record →
        ChaseGoesOn eds after ∧ j = { k with state := .lost, error := e, lockCount := 0 })
    ∧ (e.natAbs ≤ q.window → apart → eds.phase = .record → ChaseFails eds .syncLost j after)
    ∧ (e.natAbs ≤ q.window → (eds.phase ≠ .record ∨ ¬ apart) →
        ChaseGoesOn eds after ∧ j.error = e ∧ j.speed = speedLaw q e ∧ want = speedLaw q e
        ∧ (k.state = .pullIn → f = .one → e = 0 → j.lockCount = min (k.lockCount + 1) q.lockRun
            ∧ j.state = if q.lockRun ≤ k.lockCount + 1 then .locked else .pullIn)
        ∧ (k.state = .pullIn → f = .one → e ≠ 0 → j.lockCount = 0 ∧ j.state = .pullIn)
        ∧ (k.state = .pullIn → f = .two → j.lockCount = k.lockCount ∧ j.state = .pullIn)
        ∧ (k.state = .locked → e.natAbs < q.unlock → j.lockCount = k.lockCount ∧ j.state = .locked)
        ∧ (k.state = .locked → q.unlock ≤ e.natAbs → j.lockCount = 0 ∧ j.state = .pullIn)))

theorem ChaseState.computing_iff (c : ChaseState) : c.computing = true ↔ c = .pullIn ∨ c = .locked := by
  cases c <;> simp [ChaseState.computing]

theorem ChaseState.computing_eq_false_iff (c : ChaseState) : c.computing = false ↔ c = .off ∨ c = .lost := by
  cases c <;> simp [ChaseState.computing]

/-- Where none is made the items and the event stay. -/
theorem ChaseOutcome.unmade {q : ChaseParams} {watch : Bool} {k : ChaseItems} {eds after : Eds} {made : Bool} (f : FieldId)
    (e want : Int) (h : made = false ∨ k.state.computing = false) (on : ChaseGoesOn eds after) :
    ChaseOutcome q watch k eds made f e k want after := by
  refine ⟨fun _ => ⟨rfl, on⟩, fun true_made chasing => ?_⟩
  rcases h with false_made | off
  · exact absurd true_made (by simp [false_made])
  · exact absurd ((ChaseState.computing_iff _).2 chasing) (by simp [off])

/-- After a failure no deck chases (R107, R147). -/
theorem Part.failEvent_chase (p : Part) (r : Reason) (active : p.eds.active ≠ none) (d : DeckNo) :
    ((p.failEvent r).deck d).chase.state = .off := by
  show ((p.failEvent r).bay d).deck.chase.state = .off
  rw [p.failEvent_bay r d, if_neg active, p.stood_bay d, Bay.unchased]
  split
  · next off => exact off
  · rfl

/-- What a failure leaves of the engine and of the chase of a deck. -/
theorem Part.failEvent_chaseFails (p : Part) (r : Reason) (d : DeckNo) :
    ChaseFails p.eds r ((p.failEvent r).deck d).chase (p.failEvent r).eds := by
  intro n active
  obtain ⟨slot, phase, -⟩ := p.failEvent_failedAs r n active
  exact ⟨slot, phase, p.failEvent_chase r (by simp [active]) d⟩

theorem Phase.running_iff (p : Phase) : p.running = true ↔ p = .roll ∨ p = .record := by
  cases p <;> simp [Phase.running]

/-- A deck that is lost with this error (R112, R113). -/
theorem Part.loseChase_eq (p : Part) (d : DeckNo) (e : Int) (r : Reason) :
    p.loseChase d e r
      = let q := p.modDeck d fun k => { k with chase := { k.chase with state := .lost, error := e, lockCount := 0 } }
        if p.eds.phase.running then q.failEvent r else q := rfl

/-- The chase items that a computation of this error writes within the capture window (R110, R111). -/
def ChaseItems.judged (k : ChaseItems) (q : ChaseParams) (f : FieldId) (e : Int) : ChaseItems :=
  lockJudged q f e { k with error := e, speed := speedLaw q e }

/-- The part with them written, and the speed demanded. -/
def Part.judged (p : Part) (d : DeckNo) (e : Int) : Part :=
  (p.modDeck d fun k => { k with chase := k.chase.judged p.chu.params p.rtu.fieldId e }).wantSpeed d (speedLaw p.chu.params e)

theorem Part.judged_deck (p : Part) (d : DeckNo) (e : Int) :
    (p.judged d e).deck d = { p.deck d with
      chase := (p.deck d).chase.judged p.chu.params p.rtu.fieldId e, wantSpeed := speedLaw p.chu.params e } := by
  show ((p.modDeck d _).modDeck d _).deck d = _
  rw [Part.modDeck_deck_self, Part.modDeck_deck_self]

/-- The error of the computation of deck d against deck r. -/
def Part.errorOf (p : Part) (d r : DeckNo) : Int :=
  chaseError p.counting (p.deck d).position.position (p.deck r).position.position (p.chu.own.get d).playerIn
    (p.chu.own.get d).recorderIn

theorem Part.computeWith_eq (p : Part) (d r : DeckNo) :
    p.computeWith d r
      = if p.chu.params.window < (p.errorOf d r).natAbs then p.loseChase d (p.errorOf d r) .chaseRange
        else if p.chu.syncWatch && decide (p.chu.params.sync < (p.errorOf d r).natAbs) then
          (p.judged d (p.errorOf d r)).syncLost
        else p.judged d (p.errorOf d r) := rfl

/-- A computation that is made. -/
theorem Part.computeWith_outcome (p : Part) (d r : DeckNo) (chasing : (p.deck d).chase.state.computing = true) :
    ChaseOutcome p.chu.params p.chu.syncWatch (p.deck d).chase p.eds true p.rtu.fieldId (p.errorOf d r)
      ((p.computeWith d r).deck d).chase ((p.computeWith d r).deck d).wantSpeed (p.computeWith d r).eds := by
  rw [p.computeWith_eq]
  generalize p.errorOf d r = e
  have judged := p.judged_deck d e
  refine ⟨fun unmade => ?_, fun _ _ => ⟨fun beyond phase => ?_, fun beyond roll record => ?_, fun within apart record => ?_,
    fun within near => ?_⟩⟩
  · rw [← ChaseState.computing_eq_false_iff, chasing] at unmade
    exact absurd unmade (by simp)
  · rw [if_pos beyond, p.loseChase_eq]
    simp only [(Phase.running_iff _).2 phase, if_true]
    exact (p.modDeck d _).failEvent_chaseFails _ d
  · have still : p.eds.phase.running = false := by
      rw [← Bool.not_eq_true, Phase.running_iff]
      exact fun running => running.elim roll record
    rw [if_pos beyond, p.loseChase_eq]
    simp only [still, Bool.false_eq_true, if_false]
    rw [Part.modDeck_deck_self]
    exact ⟨⟨rfl, rfl⟩, rfl⟩
  · obtain ⟨watch, far⟩ := apart
    rw [if_neg (Nat.not_lt.2 within), if_pos (by simp [watch, far]), Part.syncLost,
      if_pos (show (p.judged d e).eds.phase = .record from record)]
    exact (p.judged d e).failEvent_chaseFails _ d
  · have result : (if p.chu.params.window < e.natAbs then p.loseChase d e .chaseRange
        else if p.chu.syncWatch && decide (p.chu.params.sync < e.natAbs) then (p.judged d e).syncLost
        else p.judged d e) = p.judged d e := by
      rw [if_neg (Nat.not_lt.2 within)]
      split
      · next apart =>
        refine if_neg fun record => ?_
        exact near.elim (fun other => other record) fun together => together (by simpa using apart)
      · rfl
    rw [result, judged]
    dsimp only [ChaseItems.judged]
    obtain ⟨error, speed⟩ := lockJudged_error_speed p.chu.params p.rtu.fieldId e
      { (p.deck d).chase with error := e, speed := speedLaw p.chu.params e }
    refine ⟨⟨rfl, rfl⟩, error, speed, rfl, fun pullIn one zero => ?_, fun pullIn one off => ?_, fun pullIn two => ?_,
      fun locked close => ?_, fun locked far => ?_⟩
    · rw [one, zero, lockJudged_pullIn_zero _ (by exact pullIn)]
      exact ⟨rfl, rfl⟩
    · rw [one, lockJudged_pullIn_off _ (by exact pullIn) off]
      exact ⟨rfl, pullIn⟩
    · rw [two, lockJudged_pullIn_two _ _ (by exact pullIn)]
      exact ⟨rfl, pullIn⟩
    · rw [lockJudged_locked _ _ _ (by exact locked) close]
      exact ⟨rfl, locked⟩
    · rw [lockJudged_unlocked _ _ _ (by exact locked) far]
      exact ⟨rfl, rfl⟩

/-- A computation that falls to a chasing deck: made where both records are valid. -/
theorem Part.compute_outcome {p : Part} {d r : DeckNo} (recorder : p.recorder = some r)
    (chasing : (p.deck d).chase.state.computing = true) :
    ChaseOutcome p.chu.params p.chu.syncWatch (p.deck d).chase p.eds
      ((p.deck d).position.valid && (p.deck r).position.valid) p.rtu.fieldId (p.errorOf d r)
      ((p.compute d).deck d).chase ((p.compute d).deck d).wantSpeed (p.compute d).eds := by
  simp only [Part.compute, recorder]
  cases valid : (p.deck d).position.valid && (p.deck r).position.valid with
  | true => exact p.computeWith_outcome d r chasing
  | false => exact .unmade _ _ _ (.inl rfl) ⟨rfl, rfl⟩

end Sys2Proof.Machine
end

section
/-! ## Measurements of a chasing player and stale records (O41) -/

namespace Sys2Proof.Machine

open Sys2Proof

/-! ### What the CHU keeps beside the chase items -/

/-- From `p` to `q` computations are at most released: parameters and in-points stay, and none comes to be held. -/
structure Part.Releases (p q : Part) : Prop where
  params : q.chu.params = p.chu.params
  own : ∀ d, q.chu.own.get d = p.chu.own.get d ∨ q.chu.own.get d = { p.chu.own.get d with pending := false }

theorem Part.Releases.of_chu {p q : Part} (h : q.chu = p.chu) : p.Releases q := ⟨by rw [h], fun d => .inl (by rw [h])⟩

theorem Part.Releases.pending {p q : Part} (h : p.Releases q) {d : DeckNo} (free : (p.chu.own.get d).pending = false) :
    (q.chu.own.get d).pending = false := by
  rcases h.own d with same | released
  · rw [same, free]
  · rw [released]

theorem Part.Releases.trans {p q r : Part} (h : p.Releases q) (k : q.Releases r) : p.Releases r := by
  refine ⟨k.params.trans h.params, fun d => ?_⟩
  rcases k.own d with later | later <;> rcases h.own d with first | first <;> rw [later, first]
  · exact .inl rfl
  · exact .inr rfl
  · exact .inr rfl
  · exact .inr rfl

theorem Part.failEvent_releases (p : Part) (r : Reason) : p.Releases (p.failEvent r) := by
  by_cases active : p.eds.active = none
  · rw [p.failEvent_none r active]
    exact .of_chu rfl
  · obtain ⟨n, stands⟩ := Option.ne_none_iff_exists'.1 active
    have chu : (p.failEvent r).chu = p.stood.chu := by
      have ended (q : Part) : (q.raise .eventFailed).disarmAll.endList.chu = q.chu := rfl
      rw [p.failEvent_some r stands, ended, p.closeEvent_eq, (p.stood.closeSlot_beside _ _).2.1]
    refine ⟨by rw [chu, p.stood_beside.1], fun d => ?_⟩
    have own : (p.failEvent r).chu.own.get d = (p.stood.bay d).own := by rw [chu]; rfl
    rw [own, p.stood_bay d, Bay.unchased]
    split
    · exact .inl rfl
    · exact .inr rfl

theorem Part.chaseLost_releases (p : Part) (r : Reason) : p.Releases (p.chaseLost r) := by
  unfold Part.chaseLost
  split
  · exact p.failEvent_releases r
  · exact .of_chu rfl

theorem Part.syncLost_releases (p : Part) : p.Releases p.syncLost := by
  unfold Part.syncLost
  split
  · exact p.failEvent_releases _
  · exact .of_chu rfl

theorem Part.compute_releases (p : Part) (d : DeckNo) : p.Releases (p.compute d) := by
  unfold Part.compute
  split
  · exact .of_chu rfl
  · split
    · rw [Part.computeWith_eq]
      split
      · exact Releases.trans (q := p.modDeck d _) (.of_chu rfl) (Part.chaseLost_releases _ _)
      · split
        · exact Releases.trans (q := p.judged d _) (.of_chu rfl) (Part.syncLost_releases _)
        · exact .of_chu rfl
    · exact .of_chu rfl

/-! ### A record that is replaced (R63, R108) -/

theorem Part.recorder_congr {p q : Part} (h : ∀ d, (q.deck d).role = (p.deck d).role) : q.recorder = p.recorder := by
  simp only [Part.recorder, h]

/-- From `p` to `b` the record of deck `d` is replaced by a valid one. -/
structure Part.Replaced (p : Part) (d : DeckNo) (b : Part) : Prop where
  rtu : b.rtu = p.rtu
  counting : b.counting = p.counting
  role : ∀ e, (b.deck e).role = (p.deck e).role
  eds : b.eds = p.eds
  chu : b.chu = p.chu
  chase : (b.deck d).chase = (p.deck d).chase
  valid : (b.deck d).position.valid = true
  other : ∀ e, e ≠ d → (b.deck e).position = (p.deck e).position

namespace Part.Replaced

variable {p b : Part} {d r : DeckNo} (h : p.Replaced d b)
include h

/-- Both records of the computation are valid where the recorder's is, or where the deck is the recorder. -/
theorem made : ((b.deck d).position.valid && (b.deck r).position.valid)
    = (decide (d = r) || (p.deck r).position.valid) := by
  rw [h.valid, Bool.true_and]
  by_cases same : d = r
  · subst same
    rw [h.valid, decide_eq_true rfl, Bool.true_or]
  · rw [h.other r (Ne.symm same), decide_eq_false same, Bool.false_or]

/-- Outside the instant of a field start the computation is made at once. -/
theorem outcome (recorder : p.recorder = some r) (now : p.rtu.fieldStartDue = false) :
    ChaseOutcome p.chu.params p.chu.syncWatch (p.deck d).chase p.eds (decide (d = r) || (p.deck r).position.valid)
      p.rtu.fieldId
      (chaseError p.counting ((b.positionMeasured d).deck d).position.position
        ((b.positionMeasured d).deck r).position.position (p.chu.own.get d).playerIn (p.chu.own.get d).recorderIn)
      ((b.positionMeasured d).deck d).chase ((b.positionMeasured d).deck d).wantSpeed (b.positionMeasured d).eds := by
  have steers := (Part.Steers.refl b).positionMeasured d
  rw [steers.position, steers.position, ← h.counting, ← h.chu, ← h.chase, ← h.eds, ← h.rtu, ← h.made (r := r)]
  cases chasing : (b.deck d).chase.state.computing with
  | true =>
    rw [b.positionMeasured_chasing d chasing, h.rtu, now]
    simp only [Bool.false_eq_true, if_false]
    rw [← h.rtu]
    exact Part.compute_outcome ((Part.recorder_congr h.role).trans recorder) chasing
  | false =>
    rw [b.positionMeasured_idle d chasing]
    exact .unmade _ _ _ (.inr chasing) ⟨rfl, rfl⟩

/-- The engine is the same with the same event ACTIVE, or with none before. -/
theorem measured_eds (same : p.eds.active = none ∨ (b.positionMeasured d).eds.active = p.eds.active) :
    (b.positionMeasured d).eds = p.eds := by
  rw [← h.eds] at same ⊢
  exact (b.positionMeasured_keepsOrFails d).eds same

/-- At once no computation comes to be held. -/
theorem measured_pending (now : p.rtu.fieldStartDue = false) (free : (p.chu.own.get d).pending = false) :
    ((b.positionMeasured d).chu.own.get d).pending = false := by
  rw [← h.chu] at free
  cases chasing : (b.deck d).chase.state.computing with
  | true =>
    rw [b.positionMeasured_chasing d chasing, h.rtu, now]
    exact (b.compute_releases d).pending free
  | false =>
    rw [b.positionMeasured_idle d chasing]
    exact free

/-- Where the next field start is due a computation is held, and nothing else happens (log entry 35). -/
theorem held (due : p.rtu.fieldStartDue = true) :
    ((b.positionMeasured d).deck d).chase = (p.deck d).chase ∧ (b.positionMeasured d).eds = p.eds
    ∧ (b.positionMeasured d).chu.own.get d
        = if (p.deck d).chase.state.computing then { p.chu.own.get d with pending := true } else p.chu.own.get d := by
  rw [← h.chase, ← h.eds, ← h.chu]
  cases chasing : (b.deck d).chase.state.computing with
  | true =>
    rw [b.positionMeasured_chasing d chasing, h.rtu, due]
    exact ⟨rfl, rfl, Table.get_modify_self _ _ _⟩
  | false =>
    rw [b.positionMeasured_idle d chasing]
    exact ⟨rfl, rfl, rfl⟩

end Part.Replaced

/-! ### A VITC reading that replaces the record (R50, R51, R65) -/

/-- The record of a deck that a usable VITC measurement replaces. -/
def Part.vitcRecord (p : Part) (d : DeckNo) (position field : Nat) : PosRec :=
  let r : PosRec := { (p.deck d).position with vitcAge := 0 }
  r.replaced p.counting.day position (p.rtu.elapsedFields field) r.motion .vitc

/-- The part with it written, before the CHU hears of it. -/
def Part.vitcReplaced (p : Part) (d : DeckNo) (position field : Nat) : Part :=
  p.modDeck d fun k => { k with position := p.vitcRecord d position field }

/-- A measurement that replaces the record (R65, R67). -/
theorem Part.useVitc_used {p : Part} {d : DeckNo} (position field : Nat)
    (used : (p.deck d).position.preference = .vitcFirst ∨ 2 < (p.deck d).position.deckAge) :
    p.useVitc d position field = (p.vitcReplaced d position field).positionMeasured d := if_pos used

/-- A write of one position record replaces it where the written one is valid. -/
theorem Part.replaced_modDeck (p : Part) (d : DeckNo) {r : PosRec} (valid : r.valid = true) :
    p.Replaced d (p.modDeck d fun k => { k with position := r }) where
  rtu := rfl
  counting := rfl
  role e := Table.get_eq_of_map_eq (Table.map_modify Deck.role p.decks d (fun k => { k with position := r }) fun _ => rfl) e
  eds := rfl
  chu := rfl
  chase := by rw [Part.modDeck_deck_self]
  valid := by rw [Part.modDeck_deck_self]; exact valid
  other e other := by rw [Part.modDeck_deck_ne _ _ other]

/-- An input that hands on a reading which the TCU uses. -/
theorem Part.formReading_used {p : Part} {i : Input} {first second : VitcLine} {x : Label} {drop : Bool} {f : Nat} {d : DeckNo}
    (framed : (p.siu i).state = .inWindow) (matched : (p.siu i).matchedField = some f)
    (reading : readingOf p.rtu.std ((p.siu i).vitcInUse.1 == (p.siu i).vitcInUse.2) first second = some (x, drop))
    (holder : p.holder i = some d) (settled : p.tcu.settled = true) (label : labelInRange p.counting x = true)
    (used : (p.deck d).position.preference = .vitcFirst ∨ 2 < (p.deck d).position.deckAge) :
    p.formReading i first second
      = ((p.withFormed i first second).vitcReplaced d (labelPosition p.counting x) f).positionMeasured d := by
  have siu : (p.withFormed i first second).siu i = (p.siu i).withReading (some (x, drop)) := by
    rw [Part.withFormed, reading]
    exact p.modSiu_siu_self i _
  have formed : ((p.withFormed i first second).siu i).reading = some { label := x, drop := drop, field := f } := by
    rw [siu, Siu.withReading]
    simp only [matched]
  have taken : (p.withFormed i first second).takesVitc { label := x, drop := drop, field := f } = true :=
    Bool.and_eq_true_iff.2 ⟨settled, label⟩
  rw [Part.formReading_handed framed formed, Part.deliver_some (p := p.withFormed i first second) _ holder,
    Part.vitcMeasurement_taken _ _ _ taken]
  exact Part.useVitc_used _ _ used

/-! ### A deck reply that replaces the record (R64 to R68) -/

theorem Part.deckMeasurement_used {p : Part} {d : DeckNo} {label : RawLabel} {l : Label × Bool}
    (converts : p.convertsReply d = true) (read : readLabel p.counting label = some l) (src : TcSource) (field : Nat)
    (used : (p.deck d).position.preference = .deckFirst ∨ 2 < (p.deck d).position.vitcAge) :
    p.deckMeasurement d label src field = (p.replyRecorded d label src field).positionMeasured d
    ∧ (p.replyRecord d label src field).valid = true := by
  unfold Part.deckMeasurement Part.replyRecorded Part.replyRecord
  rw [converts, read]
  simp only [if_true, Part.useDeckReply, PosRec.replyMeasured, used, true_and]
  rfl

section
variable {p : Part} {d : DeckNo} {x : Flight} {y : DeckReply}

/-- Of a player outside CUE whose line does not go LOCAL, the EDS takes nothing from a reply. -/
theorem Part.goodReply_unheard (role : (p.deck d).role ≠ .recorder) (uncued : p.eds.phase ≠ .cue)
    (line : y.isLocal = false ∨ (p.deck d).line = .inLocal) : p.goodReply d x y = p.replyMeasured d x y := by
  have told := p.replyTold_deck d x y
  have steers : ((p.replyTold d x y).replyRecorded d y.label y.source x.field).Steers (p.replyMeasured d x y) :=
    Part.deckMeasurement_steers ..
  have player : ((p.replyMeasured d x y).deck d).role ≠ .recorder := by
    rw [steers.role, Part.replyRecorded, Part.modDeck_deck_self, told, Deck.replied_eq]
    exact role
  have phase : (p.replyMeasured d x y).eds.phase ≠ .cue := by
    have keeps : (p.replyTold d x y).KeepsOrFails (p.replyMeasured d x y) := Part.deckMeasurement_keepsOrFails ..
    exact keeps.phase_ne (by rw [p.replyTold_eds]; exact uncued) nofun
  have unreported : (p.replyMeasured d x y).deckReported d x.frame y.refused y.label = p.replyMeasured d x y := by
    rw [Part.deckReported, Part.cueReport_off phase, Part.recordReport]
    split
    · rfl
    · exact if_neg player
  rw [p.goodReply_eq, unreported]
  cases goes : y.isLocal with
  | true => exact if_pos (line.resolve_left (by simp [goes]))
  | false =>
    have now : ((p.replyMeasured d x y).deck d).line = .online := by
      rw [steers.line, Part.replyRecorded, Part.modDeck_deck_self, told, Deck.replied_eq, goes]
      rfl
    have unchanged : (p.replyMeasured d x y).lineChanged d = p.replyMeasured d x y := by
      unfold Part.lineChanged
      rw [now]
      exact ite_self _
    dsimp only
    rw [unchanged, ite_self]

/-- The reply that replaces the record of such a player. -/
theorem Part.goodReply_used {l : Label × Bool} (role : (p.deck d).role ≠ .recorder) (uncued : p.eds.phase ≠ .cue)
    (line : y.isLocal = false ∨ (p.deck d).line = .inLocal) (settled : p.tcu.settled = true) (tape : y.transport ≠ .noTape)
    (label : readLabel p.counting y.label = some l)
    (used : (p.deck d).position.preference = .deckFirst ∨ 2 < (p.deck d).position.vitcAge) :
    ∃ b, p.Replaced d b ∧ p.goodReply d x y = b.positionMeasured d := by
  have told := p.replyTold_deck d x y
  have position : ((p.replyTold d x y).deck d).position = (p.deck d).position := by rw [told, Deck.replied_eq]
  have converts : (p.replyTold d x y).convertsReply d = true := by
    rw [Part.replyTold_convertsReply, settled]
    simpa using tape
  obtain ⟨measured, valid⟩ := Part.deckMeasurement_used converts ((p.replyTold_counting d x y).symm ▸ label) y.source x.field
    (position.symm ▸ used)
  refine ⟨_, ?_, (Part.goodReply_unheard role uncued line).trans measured⟩
  have written := (p.replyTold d x y).replaced_modDeck d valid
  exact ⟨written.rtu.trans (p.replyTold_rtu d x y), written.counting.trans (p.replyTold_counting d x y),
    fun e => (written.role e).trans (p.replyTold_role d x y e), written.eds.trans (p.replyTold_eds d x y),
    written.chu.trans (p.replyTold_chu d x y), written.chase.trans (by rw [told, Deck.replied_eq]), written.valid,
    fun e other => (written.other e other).trans (by rw [p.replyTold_deck_ne d x y other])⟩

end

end Sys2Proof.Machine
end

section
/-! ## Laws: a player lost to a stale position (R113) -/

namespace Sys2Proof.Machine

open Sys2Proof

/-- The event has failed with POSITION_STALE, and no deck chases. -/
structure Part.StaleLost (p q : Part) : Prop where
  failed : p.FailedAs q .positionStale
  off : ∀ d, (q.deck d).chase.state = .off

theorem Part.loseStale_idle {p : Part} {d : DeckNo} (h : (p.deck d).chase.state.computing = false) : p.loseStale d = p :=
  if_neg (by simp [h])

/-- A chasing deck that is lost in ROLL or RECORD fails the event. -/
theorem Part.loseStale_lost {p : Part} {d : DeckNo} (active : p.eds.active ≠ none) (running : p.eds.phase.running = true)
    (chasing : (p.deck d).chase.state.computing = true) : p.StaleLost (p.loseStale d) := by
  rw [Part.loseStale, if_pos chasing, p.loseChase_eq]
  dsimp only
  rw [if_pos running]
  exact ⟨Part.failEvent_failedAs (p.modDeck d _) _, Part.failEvent_chase (p.modDeck d _) _ active⟩

/-- With no deck chasing none is lost. -/
theorem Part.eachLoseStale_off {p : Part} (off : ∀ d, (p.deck d).chase.state = .off) (ds : List DeckNo) :
    (p.each ds fun x q => q.loseStale x) = p := by
  induction ds with
  | nil => rfl
  | cons d ds ih =>
    show (p.loseStale d).each ds (fun x q => q.loseStale x) = p
    rw [Part.loseStale_idle (by rw [off d]; rfl)]
    exact ih

/-- The first chasing deck that is lost fails the event, and with it every chase stops. -/
theorem Part.eachLoseStale_lost {p : Part} (active : p.eds.active ≠ none) (running : p.eds.phase.running = true)
    {ds : List DeckNo} {x : DeckNo} (mem : x ∈ ds) (chasing : (p.deck x).chase.state.computing = true) :
    p.StaleLost (p.each ds fun y q => q.loseStale y) := by
  induction ds with
  | nil => exact absurd mem List.not_mem_nil
  | cons d ds ih =>
    show p.StaleLost ((p.loseStale d).each ds fun y q => q.loseStale y)
    cases first : (p.deck d).chase.state.computing with
    | true =>
      have lost := Part.loseStale_lost active running first
      rw [Part.eachLoseStale_off lost.off]
      exact lost
    | false =>
      rw [Part.loseStale_idle first]
      refine ih ((List.mem_cons.1 mem).resolve_left ?_)
      rintro rfl
      exact absurd chasing (by simp [first])

/-- A stale record loses its own player, and the recorder's every chasing one. -/
theorem Part.positionStale_lost {p : Part} {d x : DeckNo} (active : p.eds.active ≠ none) (running : p.eds.phase.running = true)
    (hit : x = d ∨ (p.deck d).role = .recorder) (chasing : (p.deck x).chase.state.computing = true) :
    p.StaleLost (p.positionStale d) := by
  unfold Part.positionStale
  split
  · exact Part.eachLoseStale_lost active running (mem_allDecks x) chasing
  · next player =>
    obtain rfl := hit.resolve_right player
    exact Part.loseStale_lost active running chasing

/-- The stale record of a player that does not chase is heard by nobody. -/
theorem Part.positionStale_unheard {p : Part} {d : DeckNo} (player : (p.deck d).role ≠ .recorder)
    (off : (p.deck d).chase.state.computing = false) : p.positionStale d = p := by
  rw [Part.positionStale, if_neg player, Part.loseStale_idle off]

end Sys2Proof.Machine
end

section
/-! ## Laws: work of a field start that leaves a chase alone

What the work beside the computation itself leaves of the event and of the chase of a deck (R108, R141 to R145, R149). -/

namespace Sys2Proof.Machine

open Sys2Proof

/-- From `p` to `q` the event runs on as it did, but for the progress of its transition; deck `d` chases as it did, and no
other computation comes to be held. -/
structure Part.Spares (d : DeckNo) (p q : Part) : Prop where
  eds : q.eds = { p.eds with progress := q.eds.progress }
  chase : (q.deck d).chase = (p.deck d).chase
  wantSpeed : (q.deck d).wantSpeed = (p.deck d).wantSpeed
  params : q.chu.params = p.chu.params
  watch : q.chu.syncWatch = p.chu.syncWatch
  own : q.chu.own.get d = p.chu.own.get d
  free : ∀ e, (p.chu.own.get e).pending = false → (q.chu.own.get e).pending = false

namespace Part.Spares

variable {d : DeckNo} {p q r : Part}

theorem refl (d : DeckNo) (p : Part) : p.Spares d p := ⟨rfl, rfl, rfl, rfl, rfl, rfl, fun _ => id⟩

theorem trans (h : p.Spares d q) (k : q.Spares d r) : p.Spares d r where
  eds := by rw [k.eds, h.eds]
  chase := k.chase.trans h.chase
  wantSpeed := k.wantSpeed.trans h.wantSpeed
  params := k.params.trans h.params
  watch := k.watch.trans h.watch
  own := k.own.trans h.own
  free e waits := k.free e (h.free e waits)

/-- What touches neither engine nor decks nor the chase unit. -/
theorem of_same (eds : q.eds = p.eds) (decks : q.decks = p.decks) (chu : q.chu = p.chu) : p.Spares d q where
  eds := by rw [eds]
  chase := by rw [Part.deck, decks]; rfl
  wantSpeed := by rw [Part.deck, decks]; rfl
  params := by rw [chu]
  watch := by rw [chu]
  own := by rw [chu]
  free e := by rw [chu]; exact id

/-- A write into a deck record beside its chase. -/
theorem modDeck (p : Part) (d e : DeckNo) {f : Deck → Deck} (chase : ∀ k, (f k).chase = k.chase)
    (wantSpeed : ∀ k, (f k).wantSpeed = k.wantSpeed) : p.Spares d (p.modDeck e f) where
  eds := rfl
  chase := Table.get_eq_of_map_eq (Table.map_modify Deck.chase p.decks e f chase) d
  wantSpeed := Table.get_eq_of_map_eq (Table.map_modify Deck.wantSpeed p.decks e f wantSpeed) d
  params := rfl
  watch := rfl
  own := rfl
  free _ := id

end Part.Spares

/-! ### The sequencer (R141 to R144) -/

theorem Part.wantRecordOff_spares (p : Part) (d e : DeckNo) : p.Spares d (p.wantRecordOff e) :=
  .modDeck p d e (fun _ => rfl) fun _ => rfl

/-- The recorder's advance short of the record-on point in ROLL, and of the out-point in RECORD. -/
structure Part.FallsShort (p : Part) (e : DeckNo) : Prop where
  recordOn : p.eds.phase = .roll → ∀ a, p.activeArm = some a →
    reached p.counting (p.deck e).position.position (2 * ((a.recordIn : Int) - (p.deck e).params.recordLead)) = false
  out : p.eds.phase = .record → ∀ o, p.eds.outPoint = some o →
    reached p.counting (p.deck e).position.position (2 * (o : Int)) = false

theorem Part.spanPoints_spares (p : Part) (d r : DeckNo) (position : Nat) (e : EventRecord)
    (short : ∀ o, p.eds.outPoint = some o → reached p.counting position (2 * (o : Int)) = false) :
    p.Spares d (p.spanPoints r position e) := by
  unfold Part.spanPoints
  split
  · exact .refl d p
  · next o out =>
    dsimp only
    rw [short o out]
    simp only [Bool.false_eq_true, if_false]
    split
    · exact p.wantRecordOff_spares d r
    · exact .refl d p

theorem Part.writeTransition_spares (p : Part) (d : DeckNo) (position : Nat) (e : EventRecord) (a : ArmResults) :
    p.Spares d (p.writeTransition position e a) := ⟨rfl, rfl, rfl, rfl, rfl, rfl, fun _ => id⟩

theorem Part.signalAdvance_spares (p : Part) (d e : DeckNo)
    (short : (p.deck e).role = .recorder → (p.deck e).position.valid = true → p.FallsShort e) :
    p.Spares d (p.signalAdvance e) := by
  unfold Part.signalAdvance
  split
  · next heard =>
    obtain ⟨valid, role⟩ : (p.deck e).position.valid = true ∧ (p.deck e).role = .recorder := by simpa using heard
    obtain ⟨recordOn, out⟩ := short role valid
    unfold Part.recorderAdvanced
    split
    · next ev a _ arm =>
      have waits : ¬ (p.eds.phase = .roll ∧ reached p.counting (p.deck e).position.position
          (2 * ((a.recordIn : Int) - (p.deck e).params.recordLead)) = true) :=
        fun ⟨roll, reaches⟩ => absurd reaches (by simp [recordOn roll a arm])
      simp only [waits, if_false]
      split
      · next record =>
        exact (p.writeTransition_spares d _ ev a).trans (Part.spanPoints_spares _ d e _ ev (out record))
      · exact p.writeTransition_spares d _ ev a
      · exact .refl d p
    · exact .refl d p
  · exact .refl d p

/-- With no event ACTIVE the advance is heard by nobody. -/
theorem Part.signalAdvance_idle {p : Part} (h : p.eds.active = none) (e : DeckNo) : p.signalAdvance e = p := by
  have event : p.activeEvent = none := by simp only [Part.activeEvent, h]
  simp only [Part.signalAdvance, Part.recorderAdvanced, event, ite_self]

/-! ### Captures and roll plays (R74, R140) -/

theorem Part.capture_spares (p : Part) (d e : DeckNo) (g : Fin 4) : p.Spares d (p.capture e g) := by
  unfold Part.capture
  split
  · rw [Part.pushMark_eq]
    exact .of_same rfl rfl rfl
  · exact .of_same rfl rfl rfl

theorem FieldCtx.releaseHeld_spares (x : FieldCtx) (d e : DeckNo) : x.part.Spares d (x.releaseHeld e).part := by
  unfold FieldCtx.releaseHeld
  dsimp only
  generalize x.part = p
  induction x.held.filter (fun h => h.1 == e) generalizing p with
  | nil => exact .refl d p
  | cons h hs ih => exact (p.capture_spares d _ _).trans (ih _)

theorem Part.wantTransport_spares (p : Part) (d e : DeckNo) (w : Want) : p.Spares d (p.wantTransport e w) :=
  (Part.Spares.modDeck p d e (f := fun k => { k with want := w }) (fun _ => rfl) fun _ => rfl).trans (.of_same rfl rfl rfl)

theorem Part.chaseStart_deck_ne (p : Part) {d e : DeckNo} (h : d ≠ e) (a b : Nat) :
    (p.chaseStart e a b).deck d = p.deck d := by
  unfold Part.chaseStart Part.wantSpeed
  rw [Part.modDeck_deck_ne _ _ h]
  exact p.modDeck_deck_ne _ h

/-- The chase of another deck starts with none held. -/
theorem Part.chaseStart_spares (p : Part) {d e : DeckNo} (h : d ≠ e) (a b : Nat) : p.Spares d (p.chaseStart e a b) where
  eds := rfl
  chase := by rw [p.chaseStart_deck_ne h]
  wantSpeed := by rw [p.chaseStart_deck_ne h]
  params := rfl
  watch := rfl
  own := Table.get_modify_ne _ _ h
  free x waits := by
    show ((p.chu.own.modify e _).get x).pending = false
    by_cases same : x = e
    · subst same
      rw [Table.get_modify_self]
    · rw [Table.get_modify_ne _ _ same]
      exact waits

theorem Part.rollPlay_spares (p : Part) (d e : DeckNo) (h : d = e → p.playDue d = false) : p.Spares d (p.rollPlay e) := by
  unfold Part.rollPlay
  split
  · next due =>
    have other : d ≠ e := by
      rintro rfl
      exact absurd due (by simp [h rfl])
    dsimp only
    have plays := p.wantTransport_spares d e .play
    split
    · exact plays
    · split
      · split
        · exact plays.trans (Part.chaseStart_spares _ other _ _)
        · exact plays
      · exact plays
  · exact .refl d p

/-- Roll plays of the other decks; the PLAY of the deck itself is not due. -/
theorem Part.eachRollPlay_spares (p : Part) (d : DeckNo) (ds : List DeckNo)
    (h : p.eds.phase = .roll → (p.eds.rollField + Config.countModulus - (p.deck d).params.playLead) % Config.countModulus
      ≠ p.rtu.fieldCount) : p.Spares d (p.each ds fun e q => q.rollPlay e) := by
  refine (Part.each_stays (P := fun q => p.Spares d q ∧ p.Steers q) (fun e q ⟨spares, steers⟩ =>
    ⟨spares.trans (q.rollPlay_spares d e fun _ => ?_), steers.rollPlay e⟩) ds ⟨.refl d p, .refl p⟩).1
  have params : (q.deck d).params = (p.deck d).params := (congrArg Deck.params (steers.deck d) :)
  have phase : q.eds.phase = p.eds.phase := by rw [spares.eds]
  have rollField : q.eds.rollField = p.eds.rollField := by rw [spares.eds]
  by_cases roll : p.eds.phase = .roll
  · simp only [Part.playDue, params, phase, rollField, steers.rtu, beq_eq_false_iff_ne.2 (h roll), Bool.and_false]
  · simp only [Part.playDue, phase, beq_eq_false_iff_ne.2 roll, Bool.false_and]

/-! ### The inputs of the console (R174) -/

/-- An input that neither triggers nor stops (R174). -/
def GpiRole.marksOnly (r : GpiRole) : Prop := r = .noRole ∨ r = .mark

theorem FieldCtx.judgeEdge_spares (x : FieldCtx) (d : DeckNo) (n : Fin 4) (h : (x.part.gtu.gpis.get n).role.marksOnly) :
    x.part.Spares d (x.judgeEdge n).part := by
  unfold FieldCtx.judgeEdge FieldCtx.handEdge
  extract_lets g y
  have accepts : x.part.Spares d y.part := .of_same rfl rfl rfl
  split
  · split
    · rcases h with unheard | mark
      · simp only [show g.role = .noRole from unheard]
        exact accepts
      · simp only [show g.role = .mark from mark]
        split
        · exact accepts.trans (Part.capture_spares _ d _ _)
        · exact accepts
    · exact accepts
  · exact .refl d _

theorem FieldCtx.gpi_spares (began : Phase) (x : FieldCtx) (d : DeckNo) (n : Fin 4)
    (h : (x.part.gtu.gpis.get n).role.marksOnly) : x.part.Spares d (x.work began (.gpi n)).part := by
  let sampled (u : Gtu) : Gtu := { u with gpis := u.gpis.modify n (·.sampled (x.part.gtu.pins.getLsbD n.val)) }
  have samples : x.part.Spares d (x.part.modGtu sampled) := .of_same rfl rfl rfl
  refine samples.trans (FieldCtx.judgeEdge_spares { x with part := x.part.modGtu sampled } d n ?_)
  show ((x.part.gtu.gpis.modify n _).get n).role.marksOnly
  rw [Table.get_modify_self]
  exact h

/-! ### The advance of a record that is not stale (R62) -/

/-- Whose record does not go stale, its advance moves its tape and is heard by nobody. -/
theorem Part.advanceRecord_spares (p : Part) (d e : DeckNo)
    (fresh : ((p.deck e).position.advanced p.counting.day (p.deck e).transport (p.deck e).speed).stale = false) :
    p.Spares d (p.advanceRecord e) := by
  let step (k : Deck) : Deck :=
    { k with position := k.position.advanced p.counting.day (p.deck e).transport (p.deck e).speed }
  have own : (p.modDeck e step).deck e = step (p.deck e) := p.modDeck_deck_self e _
  rw [show p.advanceRecord e = (p.modDeck e step).judgeStale e from rfl, Part.judgeStale_of_fresh (own ▸ fresh)]
  exact .modDeck p d e (fun _ => rfl) fun _ => rfl

end Sys2Proof.Machine
end

section
/-! ## A held computation through the work of a field start (O41)

Whatever order the work is asked for, the one computation held is made once its two records have advanced; before it the
chase stands as the field start found it, and after it nothing else moves the event. -/

namespace Sys2Proof.Machine

open Sys2Proof

/-- The record of a deck after its field start step (R62). -/
def Part.nextRecord (p : Part) (d : DeckNo) : PosRec :=
  (p.deck d).position.advanced p.counting.day (p.deck d).transport (p.deck d).speed

/-- One computation is held, that of player `d` against the recorder `r`, and no other work of the field start moves the
event. -/
structure Part.HoldsOne (b : Part) (d r : DeckNo) : Prop where
  role : ∀ e, (b.deck e).role = .recorder ↔ e = r
  pending : (b.chu.own.get d).pending = true
  others : ∀ e, e ≠ d → (b.chu.own.get e).pending = false
  fresh : ∀ e, (b.nextRecord e).stale = false
  phase : b.eds.phase ≠ .cue
  play : b.eds.phase = .roll →
    (b.eds.rollField + Config.countModulus - (b.deck d).params.playLead) % Config.countModulus ≠ b.rtu.fieldCount
  recordOn : b.eds.phase = .roll → ∀ a, b.activeArm = some a →
    reached b.counting (b.nextRecord r).position (2 * ((a.recordIn : Int) - (b.deck r).params.recordLead)) = false
  out : b.eds.phase = .record → ∀ o, b.eds.outPoint = some o →
    reached b.counting (b.nextRecord r).position (2 * (o : Int)) = false
  postroll : b.eds.phase = .postroll → 1 < b.eds.postroll
  guard : b.eds.guardRunning = true → min 60 (b.eds.guardCount + 1) < b.eds.guardLimit

theorem Part.HoldsOne.recorder {b : Part} {d r : DeckNo} (h : b.HoldsOne d r) : b.recorder = some r := by
  cases found : b.recorder with
  | none =>
    have unfound := List.find?_eq_none.1 found r (mem_allDecks r)
    exact absurd ((h.role r).2 rfl) (by simpa using unfound)
  | some e => rw [(h.role e).1 (Part.role_of_recorder found)]

/-- A record that does not go stale is wound by its step alone. -/
theorem Part.HoldsOne.wound {b : Part} {d r : DeckNo} (h : b.HoldsOne d r) (e : DeckNo) :
    ((b.deck e).wound b.counting).position = b.nextRecord e :=
  if_neg (Bool.eq_false_iff.1 (h.fresh e))

/-! ### The event while the work goes on -/

/-- The event of `b` runs on in `q`, and the timers that are still to be counted stand as they did. -/
structure Part.RunsOn (b : Part) (ws : List FieldWork) (q : Part) : Prop where
  eds : q.eds = { b.eds with progress := q.eds.progress, postroll := q.eds.postroll, guardCount := q.eds.guardCount }
  postroll : .postroll ∈ ws → q.eds.postroll = b.eds.postroll
  guard : .guard ∈ ws → q.eds.guardCount = b.eds.guardCount

/-- The engine is in IDLE with no event and no guard. -/
structure Part.Over (q : Part) : Prop where
  phase : q.eds.phase = .idle
  active : q.eds.active = none
  guard : q.eds.guardRunning = false

section
variable {b p q : Part} {d r : DeckNo} {ws : List FieldWork}

namespace Part.RunsOn

theorem phase (h : b.RunsOn ws q) : q.eds.phase = b.eds.phase := by rw [h.eds]
theorem active (h : b.RunsOn ws q) : q.eds.active = b.eds.active := by rw [h.eds]
theorem rollField (h : b.RunsOn ws q) : q.eds.rollField = b.eds.rollField := by rw [h.eds]
theorem outPoint (h : b.RunsOn ws q) : q.eds.outPoint = b.eds.outPoint := by rw [h.eds]
theorem guardRunning (h : b.RunsOn ws q) : q.eds.guardRunning = b.eds.guardRunning := by rw [h.eds]
theorem guardLimit (h : b.RunsOn ws q) : q.eds.guardLimit = b.eds.guardLimit := by rw [h.eds]
theorem slots (h : b.RunsOn ws q) : q.eds.slots = b.eds.slots := by rw [h.eds]

theorem activeArm (h : b.RunsOn ws q) : q.activeArm = b.activeArm := by
  simp only [Part.activeArm, Part.slot, h.active, h.slots]

theorem spares (h : b.RunsOn ws p) (k : p.Spares d q) : b.RunsOn ws q where
  eds := by rw [k.eds, h.eds]
  postroll mem := by rw [k.eds, ← h.postroll mem]
  guard mem := by rw [k.eds, ← h.guard mem]

theorem of_eds (h : b.RunsOn ws p) (k : q.eds = p.eds) : b.RunsOn ws q where
  eds := by rw [k, ← h.eds]
  postroll mem := by rw [k, h.postroll mem]
  guard mem := by rw [k, h.guard mem]

end Part.RunsOn

theorem Part.Over.spares (h : p.Over) (k : p.Spares d q) : q.Over :=
  ⟨by rw [k.eds]; exact h.phase, by rw [k.eds]; exact h.active, by rw [k.eds]; exact h.guard⟩

theorem Part.Over.of_failed {why : Reason} (active : p.eds.active ≠ none) (h : q.eds = p.eds.failed why) : q.Over := by
  obtain ⟨n, stands⟩ := Option.ne_none_iff_exists'.1 active
  rw [Eds.failed, stands] at h
  exact ⟨by rw [h]; rfl, by rw [h]; rfl, by rw [h]; rfl⟩

/-! ### The computation while the work goes on -/

/-- The computation is still held, and the event and the chase of the deck stand as in `b`. -/
structure Part.Waits (b : Part) (d : DeckNo) (ws : List FieldWork) (q : Part) : Prop where
  runs : b.RunsOn ws q
  chase : (q.deck d).chase = (b.deck d).chase
  own : q.chu.own.get d = b.chu.own.get d
  params : q.chu.params = b.chu.params
  watch : q.chu.syncWatch = b.chu.syncWatch

/-- What the computation of `b` on the two advanced records leaves. -/
def Part.HeldOutcome (b : Part) (d r : DeckNo) (q : Part) : Prop :=
  ChaseOutcome b.chu.params b.chu.syncWatch (b.deck d).chase b.eds ((b.nextRecord d).valid && (b.nextRecord r).valid)
    b.rtu.fieldId
    (chaseError b.counting (b.nextRecord d).position (b.nextRecord r).position (b.chu.own.get d).playerIn
      (b.chu.own.get d).recorderIn)
    (q.deck d).chase (q.deck d).wantSpeed q.eds

/-- The computation has been made, and the event runs on or is over. -/
structure Part.Made (b : Part) (d r : DeckNo) (ws : List FieldWork) (q : Part) : Prop where
  free : (q.chu.own.get d).pending = false
  outcome : b.HeldOutcome d r q
  on : b.RunsOn ws q ∨ q.Over

/-- The stage of the computation, and that no other one is held. -/
structure Part.Fares (b : Part) (d r : DeckNo) (ws : List FieldWork) (q : Part) : Prop where
  others : ∀ e, e ≠ d → (q.chu.own.get e).pending = false
  stage : b.Waits d ws q ∨ b.Made d r ws q

/-- The outcome looks at no count of the engine. -/
theorem Part.HeldOutcome.congr {p q : Part} (h : b.HeldOutcome d r p)
    (eds : q.eds = { p.eds with
      progress := q.eds.progress, postroll := q.eds.postroll, guardCount := q.eds.guardCount })
    (chase : (q.deck d).chase = (p.deck d).chase) (wantSpeed : (q.deck d).wantSpeed = (p.deck d).wantSpeed) :
    b.HeldOutcome d r q := by
  unfold Part.HeldOutcome
  rw [chase, wantSpeed, eds]
  exact h

namespace Part.Fares

theorem on (h : b.Fares d r ws q) : b.RunsOn ws q ∨ q.Over := h.stage.elim (fun waits => .inl waits.runs) fun made => made.on

/-- Work that spares the chase leaves the computation at its stage. -/
theorem spares (h : b.Fares d r ws p) (k : p.Spares d q) : b.Fares d r ws q := by
  refine ⟨fun e other => k.free e (h.others e other), h.stage.imp (fun waits => ?_) fun made => ?_⟩
  · exact ⟨waits.runs.spares k, k.chase.trans waits.chase, k.own.trans waits.own, k.params.trans waits.params,
      k.watch.trans waits.watch⟩
  · refine ⟨by rw [k.own, made.free], made.outcome.congr ?_ k.chase k.wantSpeed,
      made.on.imp (fun runs => runs.spares k) fun ended => ended.spares k⟩
    rw [k.eds]

/-- With less work to come less is asked. -/
theorem less {vs : List FieldWork} (h : b.Fares d r ws q) (sub : vs ⊆ ws) : b.Fares d r vs q := by
  have fewer (runs : b.RunsOn ws q) : b.RunsOn vs q :=
    ⟨runs.eds, fun mem => runs.postroll (sub mem), fun mem => runs.guard (sub mem)⟩
  refine ⟨h.others, h.stage.imp (fun waits => ?_) fun made => ?_⟩
  · exact ⟨fewer waits.runs, waits.chase, waits.own, waits.params, waits.watch⟩
  · exact ⟨made.free, made.outcome, made.on.imp_left fewer⟩

/-- A timer counts at its one piece of work. -/
theorem counts {w : FieldWork} {postroll guardCount : Nat} (h : b.Fares d r (w :: ws) q) (once : w ∉ ws)
    (runs : b.RunsOn (w :: ws) q) (timer : (w = .postroll ∧ guardCount = q.eds.guardCount)
      ∨ (w = .guard ∧ postroll = q.eds.postroll)) :
    b.Fares d r ws (q.modEds fun e => { e with postroll := postroll, guardCount := guardCount }) := by
  have counted : b.RunsOn ws (q.modEds fun e => { e with postroll := postroll, guardCount := guardCount }) := by
    refine ⟨?_, fun mem => ?_, fun mem => ?_⟩
    · rw [Part.modEds_eds, runs.eds]
    · rcases timer with ⟨rfl, -⟩ | ⟨rfl, rfl⟩
      · exact absurd mem once
      · exact runs.postroll (List.mem_cons_of_mem _ mem)
    · rcases timer with ⟨rfl, rfl⟩ | ⟨rfl, -⟩
      · exact runs.guard (List.mem_cons_of_mem _ mem)
      · exact absurd mem once
  refine ⟨h.others, h.stage.imp (fun waits => ?_) fun made => ?_⟩
  · exact ⟨counted, waits.chase, waits.own, waits.params, waits.watch⟩
  · exact ⟨made.free, made.outcome.congr rfl rfl rfl, .inl counted⟩

/-- The held computation is made on the two advanced records. -/
theorem computeHeld (h : b.Fares d r ws q) (recorder : q.recorder = some r) (rtu : q.rtu = b.rtu)
    (counting : q.counting = b.counting) (player : (q.deck d).position = b.nextRecord d)
    (against : (q.deck r).position = b.nextRecord r) (pending : (b.chu.own.get d).pending = true) :
    b.Fares d r ws (q.computeHeld d) ∧ ((q.computeHeld d).chu.own.get d).pending = false := by
  rcases h.stage with waits | made
  · let p := q.modChase d fun o => { o with pending := false }
    have own : p.chu.own.get d = { b.chu.own.get d with pending := false } :=
      (Table.get_modify_self _ _ _).trans (by rw [waits.own])
    have others (e : DeckNo) (other : e ≠ d) : (p.chu.own.get e).pending = false := by
      rw [show p.chu.own.get e = q.chu.own.get e from Table.get_modify_ne _ _ other]
      exact h.others e other
    have held : (q.chu.own.get d).pending = true := by rw [waits.own, pending]
    have eds : p.eds = q.eds := rfl
    have error : p.errorOf d r = chaseError b.counting (b.nextRecord d).position (b.nextRecord r).position
        (b.chu.own.get d).playerIn (b.chu.own.get d).recorderIn := by
      rw [Part.errorOf, own, show p.counting = b.counting from counting,
        show (p.deck d).position = _ from player, show (p.deck r).position = _ from against]
    cases chasing : (q.deck d).chase.state.computing with
    | true =>
      have made := Part.compute_outcome (p := p) recorder chasing
      rw [error, show (p.deck d).position = _ from player, show (p.deck r).position = _ from against,
        show (p.deck d).chase = _ from waits.chase, show p.rtu = _ from rtu, show p.chu.params = _ from waits.params,
        show p.chu.syncWatch = _ from waits.watch, show p.eds = _ from waits.runs.eds] at made
      have releases := p.compute_releases d
      have free : ((p.compute d).chu.own.get d).pending = false := releases.pending (by rw [own])
      rw [q.computeHeld_made d held chasing]
      refine ⟨⟨fun e other => releases.pending (others e other), .inr ⟨free, made, ?_⟩⟩, free⟩
      rcases p.compute_keepsOrFails d with same | ⟨active, why, failed, -⟩
      · exact .inl (waits.runs.of_eds (same.trans eds))
      · exact .inr (.of_failed active failed)
    | false =>
      have released : q.computeHeld d = p := by simp [Part.computeHeld, held, chasing, p]
      have free : (p.chu.own.get d).pending = false := by rw [own]
      rw [released]
      refine ⟨⟨others, .inr ⟨free, ?_, .inl (waits.runs.of_eds eds)⟩⟩, free⟩
      unfold Part.HeldOutcome
      rw [show (p.deck d).chase = _ from waits.chase, show p.eds = _ from waits.runs.eds]
      exact .unmade _ _ _ (.inr (waits.chase ▸ chasing)) ⟨rfl, rfl⟩
  · rw [q.computeHeld_none d made.free]
    exact ⟨h, made.free⟩

end Part.Fares
end

end Sys2Proof.Machine
end

section
/-! ## Chase error, speed law and computations (O41) -/

namespace Sys2Proof.Machine

open Sys2Proof

/-! ### What the tapes show in the course of the work -/

section
variable {b : Part} {x : FieldCtx} (h : x.Tracks b)
include h

theorem FieldCtx.Tracks.beside (e : DeckNo) :
    (x.part.deck e).role = (b.deck e).role ∧ (x.part.deck e).params = (b.deck e).params
    ∧ (x.part.deck e).transport = (b.deck e).transport ∧ (x.part.deck e).speed = (b.deck e).speed := by
  have deck := h.deck e
  split at deck
  · exact ⟨(congrArg Deck.role deck :), (congrArg Deck.params deck :), (congrArg Deck.transport deck :),
      (congrArg Deck.speed deck :)⟩
  · exact ⟨(congrArg Deck.role deck :), (congrArg Deck.params deck :), (congrArg Deck.transport deck :),
      (congrArg Deck.speed deck :)⟩

theorem FieldCtx.Tracks.unmoved {e : DeckNo} (fresh : e ∉ x.advanced) : (x.part.deck e).position = (b.deck e).position := by
  have deck := h.deck e
  rw [if_neg fresh] at deck
  exact (congrArg Deck.position deck :)

theorem FieldCtx.Tracks.moved {d r e : DeckNo} (one : b.HoldsOne d r) (done : e ∈ x.advanced) :
    (x.part.deck e).position = b.nextRecord e := by
  have deck := h.deck e
  rw [if_pos done] at deck
  exact (congrArg Deck.position deck :).trans (one.wound e)

theorem FieldCtx.Tracks.recorder {d r : DeckNo} (one : b.HoldsOne d r) : x.part.recorder = some r :=
  (Part.recorder_congr fun e => (h.beside e).1).trans one.recorder

end

/-! ### The pieces of work -/

section
variable {b : Part} {d r : DeckNo} {ws : List FieldWork} {x : FieldCtx} (one : b.HoldsOne d r)
include one

/-- The advance of the record of a deck that was advanced falls short of every point, as in `b`. -/
theorem Part.RunsOn.fallsShort (h : b.RunsOn ws x.part) (tracks : x.Tracks b) {e : DeckNo} (done : e ∈ x.advanced)
    (role : (x.part.deck e).role = .recorder) : x.part.FallsShort e := by
  obtain ⟨same, params, -⟩ := tracks.beside e
  obtain rfl := (one.role e).1 (same ▸ role)
  have position := tracks.moved one done
  constructor
  · rw [h.phase, h.activeArm, tracks.counting, position, params]
    exact one.recordOn
  · rw [h.phase, h.outPoint, tracks.counting, position]
    exact one.out

/-- What waits for an advance leaves the computation at its stage or makes it, and none comes to be held. -/
theorem Part.Fares.react (h : b.Fares d r ws x.part) (tracks : x.Tracks b) {e : DeckNo} (done : e ∈ x.advanced)
    (w : Reaction) :
    b.Fares d r ws (x.react e w).part
    ∧ ((x.part.chu.own.get d).pending = false → ((x.react e w).part.chu.own.get d).pending = false)
    ∧ (w = .chase d → d ∈ x.advanced → r ∈ x.advanced → ((x.react e w).part.chu.own.get d).pending = false) := by
  have spared {y : FieldCtx} (k : x.part.Spares d y.part) (other : w ≠ .chase d) : b.Fares d r ws y.part
      ∧ ((x.part.chu.own.get d).pending = false → (y.part.chu.own.get d).pending = false)
      ∧ (w = .chase d → d ∈ x.advanced → r ∈ x.advanced → (y.part.chu.own.get d).pending = false) :=
    ⟨h.spares k, k.free d, fun same => absurd same other⟩
  cases w with
  | sequencer =>
    refine spared (y := x.react e .sequencer) ?_ nofun
    rcases h.on with runs | ended
    · exact x.part.signalAdvance_spares d e fun role _ => runs.fallsShort one tracks done role
    · rw [show (x.react e .sequencer).part = x.part from Part.signalAdvance_idle ended.active e]
      exact .refl d _
  | captures => exact spared (y := x.react e .captures) (x.releaseHeld_spares d e) nofun
  | chase c =>
    by_cases same : c = d
    · subst same
      by_cases ready : c ∈ x.advanced ∧ r ∈ x.advanced
      · have made := h.computeHeld (tracks.recorder one) tracks.rtu tracks.counting (tracks.moved one ready.1)
          (tracks.moved one ready.2) one.pending
        rw [show x.react e (.chase c) = _ from x.computeReady_made c r (tracks.recorder one) ready.1 ready.2]
        exact ⟨made.1, fun _ => made.2, fun _ _ _ => made.2⟩
      · have waits : x.react e (.chase c) = x := by
          rcases not_and_or.1 ready with player | recorder
          · exact x.computeReady_waits c player
          · exact x.computeReady_waits_recorder c r (tracks.recorder one) recorder
        rw [waits]
        exact ⟨h, id, fun _ player recorder => absurd ⟨player, recorder⟩ ready⟩
    · refine spared (y := x.react e (.chase c)) ?_ (by simpa using same)
      have unheld : (x.react e (.chase c)).part = x.part := by
        simp only [FieldCtx.react, FieldCtx.computeReady]
        split
        · exact x.part.computeHeld_none c (h.others c same)
        · rfl
      rw [unheld]
      exact .refl d _

/-- All that waits for an advance: the computation among it is made where both records have advanced. -/
theorem Part.Fares.reacts (rs : List Reaction) (h : b.Fares d r ws x.part) (tracks : x.Tracks b) {e : DeckNo}
    (done : e ∈ x.advanced) :
    b.Fares d r ws (rs.foldl (fun y w => y.react e w) x).part
    ∧ ((x.part.chu.own.get d).pending = false ∨ (.chase d ∈ rs ∧ d ∈ x.advanced ∧ r ∈ x.advanced) →
        ((rs.foldl (fun y w => y.react e w) x).part.chu.own.get d).pending = false) := by
  induction rs generalizing x with
  | nil => exact ⟨h, fun free => free.elim id fun ⟨mem, _⟩ => absurd mem List.not_mem_nil⟩
  | cons w rs ih =>
    obtain ⟨fares, keeps, makes⟩ := h.react one tracks done w
    have advanced := x.react_advanced e w
    obtain ⟨rest, frees⟩ := ih fares (tracks.holds (x.react_holds e w) advanced) (advanced.symm ▸ done)
    refine ⟨rest, fun free => frees ?_⟩
    rw [advanced]
    rcases free with free | ⟨mem, player, recorder⟩
    · exact .inl (keeps free)
    · rcases List.mem_cons.1 mem with now | later
      · exact .inl (makes now.symm player recorder)
      · exact .inr ⟨later, player, recorder⟩

/-- The advance of a record, and what waits for it. -/
theorem Part.Fares.advance (h : b.Fares d r ws x.part) (tracks : x.Tracks b) (began : Phase) {e : DeckNo}
    (first : List Reaction) (fresh : e ∉ x.advanced) :
    b.Fares d r ws (x.work began (.advance e first)).part
    ∧ ((x.part.chu.own.get d).pending = false ∨ (d ∈ e :: x.advanced ∧ r ∈ e :: x.advanced) →
        ((x.work began (.advance e first)).part.chu.own.get d).pending = false) := by
  have spares : x.part.Spares d (x.part.advanceRecord e) := by
    obtain ⟨-, -, transport, speed⟩ := tracks.beside e
    refine x.part.advanceRecord_spares d e ?_
    rw [tracks.unmoved fresh, tracks.counting, transport, speed]
    exact one.fresh e
  obtain ⟨fares, frees⟩ := Part.Fares.reacts one (reactionOrder first)
    (x := { x with part := x.part.advanceRecord e, advanced := e :: x.advanced }) (h.spares spares) (tracks.advance fresh)
    List.mem_cons_self
  refine ⟨fares, fun free => frees (free.imp (fun free => ?_) fun ready => ⟨?_, ready⟩)⟩
  · exact (congrArg ChaseOwn.pending spares.own).trans free
  · exact (reactionOrder_spec first).2 _ (by fin_cases d <;> decide)

/-- The postroll count of a field start ends nothing. -/
theorem Part.Fares.tickPostroll {q : Part} (h : b.Fares d r (.postroll :: ws) q) (once : .postroll ∉ ws) :
    b.Fares d r ws q.tickPostroll ∧ q.tickPostroll.chu = q.chu := by
  have less := h.less (List.subset_cons_self .postroll ws)
  by_cases phase : q.eds.phase = .postroll
  · rcases h.on with runs | ended
    · have count : 1 < q.eds.postroll := by
        rw [runs.postroll List.mem_cons_self]
        exact one.postroll (runs.phase.symm.trans phase)
      have ticked : q.tickPostroll = q.modEds fun e => { e with postroll := q.eds.postroll - 1 } := by
        rw [Part.tickPostroll, if_pos phase]
        exact if_neg (by simpa using by omega)
      rw [ticked]
      exact ⟨h.counts once runs (.inl ⟨rfl, rfl⟩), rfl⟩
    · exact absurd phase (by simp [ended.phase])
  · rw [Part.tickPostroll, if_neg phase]
    exact ⟨less, rfl⟩

/-- The guard's count of a field start trips nothing. -/
theorem Part.Fares.tickGuard {q : Part} (h : b.Fares d r (.guard :: ws) q) (once : .guard ∉ ws) :
    b.Fares d r ws q.tickGuard ∧ q.tickGuard.chu = q.chu := by
  have less := h.less (List.subset_cons_self .guard ws)
  cases running : q.eds.guardRunning with
  | true =>
    rcases h.on with runs | ended
    · have below : min 60 (q.eds.guardCount + 1) < q.eds.guardLimit := by
        rw [runs.guard List.mem_cons_self, runs.guardLimit]
        exact one.guard (runs.guardRunning.symm.trans running)
      have ticked : q.tickGuard = q.modEds fun e => { e with guardCount := min 60 (q.eds.guardCount + 1) } := by
        rw [Part.tickGuard, if_pos running]
        refine if_neg fun due => ?_
        have limit : q.eds.guardLimit ≤ min 60 (q.eds.guardCount + 1) := of_decide_eq_true (Bool.and_eq_true_iff.1 due).2
        exact absurd below (Nat.not_lt.2 limit)
      rw [ticked]
      exact ⟨h.counts once runs (.inr ⟨rfl, rfl⟩), rfl⟩
    · exact absurd running (by simp [ended.guard])
  | false =>
    rw [Part.tickGuard, if_neg (by simp [running])]
    exact ⟨less, rfl⟩

/-- Every other piece of work leaves the computation at its stage. -/
theorem Part.Fares.aside {w : FieldWork} (h : b.Fares d r (w :: ws) x.part) (once : w ∉ ws) (tracks : x.Tracks b)
    (roles : ∀ n, (x.part.gtu.gpis.get n).role.marksOnly) (other : advances w = none) :
    b.Fares d r ws (x.work b.eds.phase w).part
    ∧ ((x.part.chu.own.get d).pending = false → ((x.work b.eds.phase w).part.chu.own.get d).pending = false) := by
  have spared {y : FieldCtx} (k : x.part.Spares d y.part) : b.Fares d r ws y.part
      ∧ ((x.part.chu.own.get d).pending = false → (y.part.chu.own.get d).pending = false) :=
    ⟨(h.less (List.subset_cons_self w ws)).spares k, k.free d⟩
  cases w with
  | advance e first => exact absurd other (by simp [advances])
  | cueTimers =>
    rw [show x.work b.eds.phase .cueTimers = x from if_neg one.phase]
    exact spared (.refl d _)
  | rollPlays =>
    refine spared (y := x.work b.eds.phase .rollPlays) ?_
    rcases h.on with runs | ended
    · refine x.part.eachRollPlay_spares d allDecks fun roll => ?_
      rw [runs.rollField, (tracks.beside d).2.1, tracks.rtu]
      exact one.play (runs.phase.symm.trans roll)
    · rw [show (x.work b.eds.phase .rollPlays).part = x.part from
        Part.eachRollPlay_off allDecks x.part (by simp [ended.phase])]
      exact .refl d _
  | postroll =>
    by_cases began : b.eds.phase = .postroll
    · obtain ⟨fares, chu⟩ := h.tickPostroll one once
      rw [show x.work b.eds.phase .postroll = _ from if_pos began]
      exact ⟨fares, fun free => by rw [chu]; exact free⟩
    · rw [show x.work b.eds.phase .postroll = x from if_neg began]
      exact spared (.refl d _)
  | guard =>
    obtain ⟨fares, chu⟩ := h.tickGuard one once
    exact ⟨fares, fun free => (congrArg (fun c : Chu => (c.own.get d).pending) chu).trans free⟩
  | autoTake => exact spared (y := x.work b.eds.phase .autoTake) (.of_same rfl rfl rfl)
  | gpi n => exact spared (x.gpi_spares _ d n (roles n))

/-- All the work of a field start of which each piece is done once. -/
theorem Part.Fares.works (ws : List FieldWork) (h : b.Fares d r ws x.part) (tracks : x.Tracks b)
    (roles : ∀ n, (x.part.gtu.gpis.get n).role.marksOnly) (nodup : (ws.map FieldWork.piece).Nodup)
    (fresh : ∀ e ∈ advancedBy ws, e ∉ x.advanced)
    (ready : d ∈ x.advanced → r ∈ x.advanced → (x.part.chu.own.get d).pending = false) :
    let y := ws.foldl (FieldCtx.work b.eds.phase) x
    b.Fares d r [] y.part ∧ (d ∈ y.advanced → r ∈ y.advanced → (y.part.chu.own.get d).pending = false) := by
  induction ws generalizing x with
  | nil => exact ⟨h, ready⟩
  | cons w ws ih =>
    rw [advancedBy_cons] at fresh
    have apart := advancedBy_nodup nodup
    rw [advancedBy_cons] at apart
    rw [List.map_cons, List.nodup_cons] at nodup
    have once : w ∉ ws := fun again => nodup.1 (List.mem_map_of_mem again)
    have now (e : DeckNo) (advance : advances w = some e) : e ∉ x.advanced := fresh e (by simp [advance])
    have advanced := x.work_advanced b.eds.phase w
    have step : b.Fares d r ws (x.work b.eds.phase w).part
        ∧ (d ∈ (x.work b.eds.phase w).advanced → r ∈ (x.work b.eds.phase w).advanced →
          ((x.work b.eds.phase w).part.chu.own.get d).pending = false) := by
      rw [advanced]
      cases advance : advances w with
      | none =>
        obtain ⟨fares, keeps⟩ := h.aside one once tracks roles advance
        exact ⟨fares, fun player recorder => keeps (ready player recorder)⟩
      | some e =>
        cases w with
        | advance c first =>
          obtain rfl : c = e := by simpa [advances] using advance
          obtain ⟨fares, makes⟩ := (h.less (List.subset_cons_self _ ws)).advance one tracks b.eds.phase first (now c advance)
          exact ⟨fares, fun player recorder => makes (.inr ⟨player, recorder⟩)⟩
        | _ => simp [advances] at advance
    refine ih step.1 (tracks.work b.eds.phase w now) (fun n => ?_) nodup.2 (fun e later => ?_) step.2
    · exact (Table.get_eq_of_map_eq (x.work_roles b.eds.phase w) n : Gpi.role _ = Gpi.role _) ▸ roles n
    · rw [advanced, List.mem_append, not_or]
      exact ⟨fun first => (List.nodup_append.1 apart).2.2 e first e later rfl, fresh e (List.mem_append_right _ later)⟩

/-- After the work of a field start the computation that was held has been made. -/
theorem Part.HoldsOne.fieldWork (asked : List FieldWork) (roles : ∀ n, (b.gtu.gpis.get n).role.marksOnly) :
    ((b.fieldWork asked).chu.own.get d).pending = false ∧ b.HeldOutcome d r (b.fieldWork asked) := by
  have waits : b.Fares d r (workOrder asked) b :=
    ⟨one.others, .inl ⟨⟨rfl, fun _ => rfl, fun _ => rfl⟩, rfl, rfl, rfl, rfl⟩⟩
  have nodup := (workOrder_spec asked).1
  have start := FieldCtx.Tracks.start b
  have fresh : ∀ e ∈ advancedBy (workOrder asked), e ∉ ({ part := b, advanced := [], held := [] } : FieldCtx).advanced :=
    fun _ _ => List.not_mem_nil
  have done := (start.works b.eds.phase (workOrder asked) (advancedBy_nodup nodup) fresh).2
  obtain ⟨fares, makes⟩ := Part.Fares.works one (workOrder asked)
    (x := { part := b, advanced := [], held := [] }) waits start roles nodup fresh fun none => absurd none List.not_mem_nil
  have free : ((b.fieldWork asked).chu.own.get d).pending = false :=
    makes (done d (.inr (mem_advancedBy_workOrder asked d))) (done r (.inr (mem_advancedBy_workOrder asked r)))
  refine ⟨free, ?_⟩
  rcases fares.stage with still | made
  · have held : ((b.fieldWork asked).chu.own.get d).pending = true := by
      rw [show (b.fieldWork asked).chu.own.get d = _ from still.own]
      exact one.pending
    exact absurd held (by simp [free])
  · exact made.outcome

end

end Sys2Proof.Machine
end

section
/-! ## The chase obligation (O41) -/

namespace Sys2Proof.Machine

open Sys2Proof

/-! ### The measurements of the two kinds -/

section
variable {s : State} {d : DeckNo}

/-- A VITC reading that replaces the record of the holder. -/
theorem vitcReading_replaces {i : Input} {first second : VitcLine} {x : Label} {drop : Bool} {f : Nat}
    (framed : (s.part.siu i).state = .inWindow) (matched : (s.part.siu i).matchedField = some f)
    (reading : readingOf s.part.rtu.std ((s.part.siu i).vitcInUse.1 == (s.part.siu i).vitcInUse.2) first second
      = some (x, drop))
    (holder : s.part.holder i = some d) (settled : s.part.tcu.settled = true)
    (label : labelInRange s.part.counting x = true)
    (used : (s.part.deck d).position.preference = .vitcFirst ∨ 2 < (s.part.deck d).position.deckAge) :
    ∃ b, s.part.Replaced d b
      ∧ exec (.vitcReading i first second) s = .next { s with part := b.positionMeasured d } := by
  have written := (s.part.withFormed i first second).replaced_modDeck d
    (r := (s.part.withFormed i first second).vitcRecord d (labelPosition s.part.counting x) f) rfl
  exact ⟨_, ⟨written.rtu, written.counting, written.role, written.eds, written.chu, written.chase, written.valid,
    written.other⟩, congrArg (ran s) (Part.formReading_used framed matched reading holder settled label used)⟩

/-- A good reply that replaces the record of its deck, a player outside CUE whose line does not go LOCAL. -/
theorem deckReplyGood_replaces {y : DeckReply} {x : Flight} {l : Label × Bool} (flight : (s.part.port d).flight = some x)
    (quiet : (s.part.port d).sending = []) (role : (s.part.deck d).role ≠ .recorder) (uncued : s.part.eds.phase ≠ .cue)
    (line : y.isLocal = false ∨ (s.part.deck d).line = .inLocal) (settled : s.part.tcu.settled = true)
    (tape : y.transport ≠ .noTape) (label : readLabel s.part.counting y.label = some l)
    (used : (s.part.deck d).position.preference = .deckFirst ∨ 2 < (s.part.deck d).position.vitcAge) :
    ∃ b, s.part.Replaced d b ∧ exec (.deckReplyGood d y) s = .next { s with part := b.positionMeasured d } := by
  have receiving : (s.part.port d).receiving = some x := (if_pos quiet).trans flight
  obtain ⟨b, replaced, reply⟩ := Part.goodReply_used (x := x) role uncued line settled tape label used
  refine ⟨b, replaced, ?_⟩
  show execDeckReplyGood d y s = _
  rw [execDeckReplyGood, receiving]
  exact congrArg (ran s) reply

end

/-! ### The field start -/

theorem Rtu.opensField_fieldCount (r : Rtu) : r.opensField.fieldCount = nextCount r.fieldCount := by
  unfold Rtu.opensField
  split <;> rfl

/-- The part at its field start, before the work: its clock has gone on, and its decks and engine stand. -/
theorem Part.opened_rtu (p : Part) (pins : BitVec 4) : (p.opened pins).rtu = p.rtu.opensField :=
  congrArg Prod.fst (p.opened_aside pins)

theorem Part.opened_deck (p : Part) (pins : BitVec 4) (d : DeckNo) : (p.opened pins).deck d = p.deck d := by
  obtain ⟨-, -, decks, -, -⟩ := p.opened_kept pins
  rw [Part.deck, decks, Part.deck]

theorem Part.opened_role (p : Part) (pins : BitVec 4) (n : Fin 4) :
    ((p.opened pins).gtu.gpis.get n).role = (p.gtu.gpis.get n).role :=
  congrArg (fun x : Rtu × Table Siu 3 × Gtu => (x.2.2.gpis.get n).role) (p.opened_aside pins)

theorem Part.opened_nextRecord (p : Part) (pins : BitVec 4) (d : DeckNo) :
    (p.opened pins).nextRecord d = p.nextRecord d := by
  obtain ⟨-, -, -, -, counting⟩ := p.opened_kept pins
  rw [Part.nextRecord, p.opened_deck, counting, Part.nextRecord]

/-- A record stays fresh where it is not older than 30 field starts. -/
theorem PosRec.fresh_of_age {r : PosRec} (h : r.valid = true → r.age ≤ 30) : r.stale = false :=
  Bool.eq_false_iff.2 fun stale =>
    have ⟨valid, old⟩ := Bool.and_eq_true_iff.1 stale
    absurd (h valid) (Nat.not_le.2 (of_decide_eq_true old))

theorem not_reached {c : Counting} {position : Nat} {point : Int} (h : c.sym (position - point) < 0) :
    reached c position point = false := decide_eq_false (Int.not_le.2 h)

/-- A record made invalid leaves every deck its role and its chase. -/
theorem Part.invalidated_beside (p : Part) (d e : DeckNo) :
    let q := p.modDeck d fun k => { k with position := k.position.invalidated }
    (q.deck e).role = (p.deck e).role ∧ (q.deck e).chase = (p.deck e).chase := by
  let invalid (k : Deck) : Deck := { k with position := k.position.invalidated }
  exact ⟨Table.get_eq_of_map_eq (Table.map_modify Deck.role p.decks d invalid fun _ => rfl) e,
    Table.get_eq_of_map_eq (Table.map_modify Deck.chase p.decks d invalid fun _ => rfl) e⟩

/-- Settles O41: a record replaced by either measurement makes or holds its computation, the work of a field start makes the
held one, and a stale record loses the chasing players. -/
theorem chaseErrorAndSpeed : Obligations.ChaseErrorAndSpeed := by
  unfold Obligations.ChaseErrorAndSpeed
  intro outcome
  refine ⟨chaseError_spec, fun q e => ?_, fun s c d r => ?_, fun s pins order d r => ?_,
    fun s d x n active phase valid old => ?_⟩
  · obtain ⟨near, away⟩ := roundQuarter_spec (e * q.gain)
    exact ⟨_, near, away, speedLaw_eq q e⟩
  · intro k o byVitc byReply measured recorder settled
    have replaces : ∃ b, s.part.Replaced d b ∧ exec c s = .next { s with part := b.positionMeasured d } := by
      rcases measured with ⟨i, first, second, x, drop, f, rfl, framed, matched, reading, holder, label, used⟩
        | ⟨y, x, l, rfl, flight, quiet, role, uncued, line, tape, label, used⟩
      · exact vitcReading_replaces framed matched reading holder settled label used
      · exact deckReplyGood_replaces flight quiet role uncued line settled tape label used
    obtain ⟨b, replaced, leads⟩ := replaces
    refine ⟨b.positionMeasured d, leads, fun now => ⟨replaced.outcome recorder now, replaced.measured_eds,
      replaced.measured_pending now⟩, fun due => ?_⟩
    obtain ⟨chase, eds, own⟩ := replaced.held due
    refine ⟨chase, eds, fun idle => ?_, fun chasing => ?_⟩
    · rw [own, (ChaseState.computing_eq_false_iff _).2 idle]
      rfl
    · rw [own, (ChaseState.computing_iff _).2 chasing]
      rfl
  · intro c o eds a short ready role player pending others fresh phase roll record postroll guard inputs
    obtain ⟨eds_eq, -, -, chu, counting⟩ := s.part.opened_kept pins
    have rtu := s.part.opened_rtu pins
    have activeArm : (s.part.opened pins).activeArm = s.part.activeArm := by simp only [Part.activeArm, Part.slot, eds_eq]
    have one : (s.part.opened pins).HoldsOne d r := by
      constructor
      case role => exact fun e => by rw [s.part.opened_deck]; exact role e
      case pending => rw [chu]; exact pending
      case others => exact fun e other => by rw [chu]; exact others e other
      case fresh => exact fun e => by rw [s.part.opened_nextRecord]; exact PosRec.fresh_of_age (fresh e)
      case phase => rw [eds_eq]; rintro cue; simp [eds, cue] at phase
      case play =>
        rw [eds_eq, s.part.opened_deck, rtu, Rtu.opensField_fieldCount]
        exact fun rolls => (roll rolls).1
      case recordOn =>
        rw [activeArm, eds_eq, s.part.opened_deck, s.part.opened_nextRecord, counting]
        exact fun rolls arm stands => not_reached ((roll rolls).2 arm stands)
      case out =>
        rw [eds_eq, s.part.opened_nextRecord, counting]
        exact fun records point stands => not_reached (record records point stands)
      case postroll => rw [eds_eq]; exact postroll
      case guard => rw [eds_eq]; exact guard
    obtain ⟨free, made⟩ := one.fieldWork order fun n => s.part.opened_role pins n ▸ inputs n
    refine ⟨(s.part.opened pins).fieldWork order, congrArg (ran s) (s.part.fieldStart_eq pins order ready), free, ?_⟩
    unfold Part.HeldOutcome at made
    rw [← (s.part.opened pins).fieldWork_rtu order, chu, eds_eq, counting, s.part.opened_deck, s.part.opened_nextRecord,
      s.part.opened_nextRecord] at made
    exact made
  · have stale : (s.part.deck d).position.stale = true := Bool.and_eq_true_iff.2 ⟨valid, decide_eq_true old⟩
    refine ⟨s.part.judgeStale d, rfl, fun hit chasing => ?_, fun player idle => ?_⟩
    all_goals
      rw [Part.judgeStale_of_stale stale]
      have beside (e : DeckNo) := s.part.invalidated_beside d e
    · have lost := Part.positionStale_lost (p := s.part.modDeck d fun k => { k with position := k.position.invalidated })
        (d := d) (x := x) (Option.ne_none_iff_exists'.2 ⟨n, active⟩) ((Phase.running_iff _).2 phase)
        (hit.imp_right (beside d).1.trans) (by rw [(beside x).2]; exact (ChaseState.computing_iff _).2 chasing)
      obtain ⟨slot, idle, -⟩ := lost.failed n active
      exact ⟨slot, idle, lost.off x⟩
    · rw [Part.positionStale_unheard ((beside d).1 ▸ player)
        (by rw [(beside d).2]; exact (ChaseState.computing_eq_false_iff _).2 idle)]
      exact ⟨rfl, (beside d).2⟩

end Sys2Proof.Machine
end

section
/-! ## Laws: the seats of the decks

What the deck table says of a deck is its seat: its role, its video input, and whether record ON is wanted of it beside the
role RECORDER. No move of the Edit Sequencer, of the chase, of a tape or of a port changes a seat: record ON is wanted of the
recorder alone, on its own advance. One lemma per operation, in the order of the model's definitions, each from a part whose
seats have been kept so far. -/

namespace Sys2Proof.Machine

open Sys2Proof

/-- The role of a deck, its video input, and whether record ON is wanted of it although it is not RECORDER. -/
def Deck.seat (k : Deck) : Role × Option Input × Bool := (k.role, k.input, k.wantRecord && k.role != .recorder)

/-- From `p` to `q` every deck keeps its seat. -/
def Part.KeepsSeats (p q : Part) : Prop := ∀ d, (q.deck d).seat = (p.deck d).seat

namespace Part.KeepsSeats

variable {p q r : Part}

theorem refl (p : Part) : p.KeepsSeats p := fun _ => rfl

theorem trans (h : p.KeepsSeats q) (k : q.KeepsSeats r) : p.KeepsSeats r := fun d => (k d).trans (h d)

theorem role (h : p.KeepsSeats q) (d : DeckNo) : (q.deck d).role = (p.deck d).role := (congrArg Prod.fst (h d) :)

theorem input (h : p.KeepsSeats q) (d : DeckNo) : (q.deck d).input = (p.deck d).input :=
  (congrArg (fun x => x.2.1) (h d) :)

/-! ### Updates -/

section
variable (h : p.KeepsSeats q)
include h

theorem ite {c : Prop} [Decidable c] (k : p.KeepsSeats r) : p.KeepsSeats (if c then q else r) := by
  split
  · exact h
  · exact k

theorem modDeck (d : DeckNo) (f : Deck → Deck) (same : (f (q.deck d)).seat = (q.deck d).seat) :
    p.KeepsSeats (q.modDeck d f) := by
  intro e
  by_cases here : e = d
  · subst here
    rw [Part.modDeck_deck_self, same]
    exact h e
  · rw [Part.modDeck_deck_ne _ _ here]
    exact h e

theorem modPort (d : DeckNo) (f : Port → Port) : p.KeepsSeats (q.modPort d f) := h
theorem modSiu (i : Input) (f : Siu → Siu) : p.KeepsSeats (q.modSiu i f) := h
theorem modChase (d : DeckNo) (f : ChaseOwn → ChaseOwn) : p.KeepsSeats (q.modChase d f) := h
theorem modEds (f : Eds → Eds) : p.KeepsSeats (q.modEds f) := h
theorem modSlot (n : SlotNo) (f : Slot → Slot) : p.KeepsSeats (q.modSlot n f) := h
theorem modMep (f : Mep → Mep) : p.KeepsSeats (q.modMep f) := h
theorem modPku (f : Pku → Pku) : p.KeepsSeats (q.modPku f) := h
theorem modRtu (f : Rtu → Rtu) : p.KeepsSeats (q.modRtu f) := h
theorem modTcu (f : Tcu → Tcu) : p.KeepsSeats (q.modTcu f) := h
theorem modGtu (f : Gtu → Gtu) : p.KeepsSeats (q.modGtu f) := h
theorem raise (n : Notice) : p.KeepsSeats (q.raise n) := h
theorem setSyncWatch (b : Bool) : p.KeepsSeats (q.setSyncWatch b) := h

theorem each (ds : List DeckNo) (f : DeckNo → Part → Part) (kept : ∀ d r, p.KeepsSeats r → p.KeepsSeats (f d r)) :
    p.KeepsSeats (q.each ds f) :=
  Part.each_stays kept ds h

/-! ### Demands (R101, R102) -/

theorem wantTransport (d : DeckNo) (w : Want) : p.KeepsSeats (q.wantTransport d w) :=
  (h.modDeck d (fun k => { k with want := w }) rfl).modPort d _

theorem wantTransportResent (d : DeckNo) (w : Want) : p.KeepsSeats (q.wantTransportResent d w) :=
  (h.wantTransport d w).modDeck d _ rfl

/-- Of the recorder a record level may be wanted, ON or OFF. -/
theorem modWantRecord {d : DeckNo} (recorder : (q.deck d).role = .recorder) (level : Bool) :
    p.KeepsSeats (q.modDeck d fun k => { k with wantRecord := level }) :=
  h.modDeck d _ (by simp [Deck.seat, recorder])

theorem wantRecordOn {d : DeckNo} (recorder : (q.deck d).role = .recorder) (tracks : BitVec 4) :
    p.KeepsSeats (q.wantRecordOn d tracks) :=
  (h.modWantRecord recorder true).modPort d _

theorem wantRecordOff {d : DeckNo} (recorder : (q.deck d).role = .recorder) : p.KeepsSeats (q.wantRecordOff d) :=
  h.modWantRecord recorder false

theorem wantSpeed (d : DeckNo) (v : Int) : p.KeepsSeats (q.wantSpeed d v) := h.modDeck d _ rfl
theorem dropDirect (d : DeckNo) : p.KeepsSeats (q.dropDirect d) := h.modDeck d _ rfl

/-! ### Chases started and stopped (R106, R107) -/

theorem chaseStart (d : DeckNo) (a b : Nat) : p.KeepsSeats (q.chaseStart d a b) :=
  ((h.modDeck d (fun k => { k with chase := { ChaseItems.stopped with state := .pullIn } }) rfl).modChase d _).wantSpeed d 256

theorem chaseStop (d : DeckNo) : p.KeepsSeats (q.chaseStop d) :=
  (((h.modDeck d (fun k => { k with chase := .stopped }) rfl).modChase d _).wantSpeed d 256).setSyncWatch false

theorem chaseStopAll : p.KeepsSeats q.chaseStopAll := h.each _ _ fun d _ k => (k.chaseStop d).ite k

/-! ### How an event ends (R132, R145, R147, R148, R151) -/

theorem enterIdle (keepLatch : Bool) : p.KeepsSeats (q.enterIdle keepLatch) := h
theorem endList : p.KeepsSeats q.endList := h
theorem stopGuard : p.KeepsSeats q.stopGuard := h
theorem disarmAll : p.KeepsSeats q.disarmAll := h
theorem stillAll : p.KeepsSeats q.stillAll := h.each _ _ fun d _ k => k.wantTransport d .still

theorem recordOff : p.KeepsSeats q.recordOff := by
  unfold Part.recordOff
  split
  · next recorder => exact h.wantRecordOff (Part.role_of_recorder recorder)
  · exact h

theorem closeSlot (st : SlotState) (why : Reason) : p.KeepsSeats (q.closeSlot st why) := by
  unfold Part.closeSlot
  split <;> exact h

theorem closeEvent (st : SlotState) (why : Reason) : p.KeepsSeats (q.closeEvent st why) :=
  ((h.recordOff.stillAll.setSyncWatch false).chaseStopAll.modMep _).closeSlot st why

theorem failEvent (why : Reason) : p.KeepsSeats (q.failEvent why) :=
  ((h.closeEvent .failed why).raise .eventFailed).disarmAll.endList.ite h

theorem abortEvent (why : Reason) : p.KeepsSeats (q.abortEvent why) := (h.closeEvent .aborted why).endList.ite h

theorem resetEngine : p.KeepsSeats q.resetEngine := ((h.closeEvent .aborted .engineReset).ite h).disarmAll.enterIdle false

/-! ### How an event starts and how the cursor goes on (R133, R134, R145) -/

theorem setCue (d : DeckNo) (c : CueRecord) : p.KeepsSeats (q.setCue d c) := h
theorem setCursor (n : SlotNo) : p.KeepsSeats (q.setCursor n) := h

theorem giveCue (a : ArmResults) (d : DeckNo) : p.KeepsSeats (q.giveCue a d) := by
  unfold Part.giveCue
  split
  · exact (h.wantTransportResent d _).setCue d _
  · exact h

theorem activate (n : SlotNo) (a : ArmResults) : p.KeepsSeats (q.activate n a) :=
  ((h.modSlot n _).modEds _).each _ _ fun d _ k => k.dropDirect d

theorem startEvent (n : SlotNo) : p.KeepsSeats (q.startEvent n) := by
  unfold Part.startEvent
  split
  · exact h
  · next a _ =>
    dsimp only
    split
    · exact (h.activate n a).failEvent _
    · exact (h.activate n a).each _ _ fun d _ k => k.giveCue a d

theorem armEvent (n : SlotNo) (e : EventRecord) : p.KeepsSeats (q.armEvent n e).1 := by
  unfold Part.armEvent
  dsimp only
  split <;> exact h

theorem armSlot (n : SlotNo) : p.KeepsSeats (q.armSlot n).1 := by
  unfold Part.armSlot
  split
  case h_5 => exact h.armEvent n _
  all_goals exact h

omit h in
theorem cursorArrives (fuel : Nat) (m : Nat) {q : Part} (h : p.KeepsSeats q) : p.KeepsSeats (cursorArrives fuel m q) := by
  induction fuel generalizing m q with
  | zero => exact (h.setCursor 63).endList
  | succ fuel ih =>
    unfold Machine.cursorArrives
    split
    · exact (h.setCursor 63).endList
    · next k _ =>
      split
      · exact ih _ h
      · exact h.startEvent k
      · have armed := h.armSlot k
        split
        next r a slot =>
        rw [slot] at armed
        exact (armed.startEvent k).ite (armed.setCursor k).endList

theorem moveOn (n : SlotNo) : p.KeepsSeats (q.moveOn n) :=
  (h.setCursor (nextSlot n)).endList.ite (cursorArrives 64 _ (h.enterIdle true))

theorem endPostroll : p.KeepsSeats q.endPostroll := by
  unfold Part.endPostroll
  split
  · exact h
  · exact (((h.stillAll.chaseStopAll.modMep _).closeSlot .done .noReason).raise .eventDone).moveOn _

theorem enterPostroll : p.KeepsSeats q.enterPostroll := by
  unfold Part.enterPostroll
  split
  · exact h
  · have postroll := ((h.setSyncWatch false).stopGuard).modEds
    exact (postroll _).endPostroll.ite (postroll _)

theorem startList (n : SlotNo) : p.KeepsSeats (q.startList n) := (h.modEds _).startEvent n

theorem runList (n : SlotNo) : p.KeepsSeats (q.runList n).1 := by
  unfold Part.runList
  split
  · exact h
  · split
    · exact h
    · exact h.startList n
    · have armed := h.armSlot n
      split
      next r a slot =>
      rw [slot] at armed
      split
      · exact armed.startList n
      · exact armed

/-! ### Roll, hold and cue (R135 to R140) -/

theorem enterRoll : p.KeepsSeats q.enterRoll := by
  unfold Part.enterRoll
  split <;> exact h

theorem rollPlay (d : DeckNo) : p.KeepsSeats (q.rollPlay d) := by
  have played := h.wantTransport d .play
  unfold Part.rollPlay
  refine ite (ite played ?_) h
  split
  · split
    · exact played.chaseStart d _ _
    · exact played
  · exact played

theorem enterHold : p.KeepsSeats q.enterHold := (h.modEds _).enterRoll.ite ((h.stillAll.modEds _).raise .holdWaiting)

theorem leaveCue : p.KeepsSeats q.leaveCue := by
  unfold Part.leaveCue
  refine ite ?_ h
  split
  · exact h.enterHold.ite h.enterRoll
  · exact h

theorem leaveHold : p.KeepsSeats q.leaveHold := (h.modEds _).enterRoll.ite h
theorem takeRelease : p.KeepsSeats q.takeRelease := (h.modEds _).leaveHold

theorem judgeCue (d : DeckNo) (point : Nat) (c : CueRecord) : p.KeepsSeats (q.judgeCue d point c) :=
  ((h.setCue d _).leaveCue.ite (((h.wantTransportResent d _).setCue d _).ite (h.failEvent .cueMiss))).ite (h.setCue d c)

theorem cueReport (d : DeckNo) (f : Frame) (refused : Bool) : p.KeepsSeats (q.cueReport d f refused) := by
  unfold Part.cueReport
  split
  · split
    · exact h
    · split
      · exact h
      · exact h.judgeCue d _ _
      · exact (h.judgeCue d _ _).ite h
  · exact h

theorem judgeCueTimer (d : DeckNo) : p.KeepsSeats (q.judgeCueTimer d) := (h.failEvent .cueTimeout).ite h

theorem tickCueTimers : p.KeepsSeats q.tickCueTimers :=
  ((h.modEds _).each allDecks _ fun d _ k => k.judgeCueTimer d).ite h

/-! ### The record span (R141 to R144) -/

/-- The record-on decision wants record ON of the deck that it is made for (R141). -/
theorem decideRecordOn {d : DeckNo} (recorder : (q.deck d).role = .recorder) (e : EventRecord) :
    p.KeepsSeats (q.decideRecordOn d e) := by
  unfold Part.decideRecordOn
  split
  · exact h.failEvent _
  · exact (((h.wantRecordOn recorder _).ite h).modEds _).setSyncWatch true

theorem writeTransition (position : Nat) (e : EventRecord) (a : ArmResults) :
    p.KeepsSeats (q.writeTransition position e a) := h

theorem spanPoints {d : DeckNo} (recorder : (q.deck d).role = .recorder) (position : Nat) (e : EventRecord) :
    p.KeepsSeats (q.spanPoints d position e) := by
  unfold Part.spanPoints
  split
  · exact h
  · have ended {c : Prop} [Decidable c] : p.KeepsSeats (if c then q.wantRecordOff d else q) :=
      (h.wantRecordOff recorder).ite h
    exact ended.enterPostroll.ite ended

/-- The advance is the recorder's own, before and after the decision (R63, R141). -/
theorem recorderAdvanced {d : DeckNo} (recorder : (q.deck d).role = .recorder) : p.KeepsSeats (q.recorderAdvanced d) := by
  unfold Part.recorderAdvanced
  split
  · next e a _ _ =>
    extract_lets position decided
    have decides : q.KeepsSeats decided := ((refl q).decideRecordOn recorder e).ite (refl q)
    refine h.trans ?_
    split
    · exact (decides.writeTransition _ _ _).spanPoints ((decides.role d).trans recorder) _ _
    · exact decides.writeTransition _ _ _
    · exact decides
  · exact h

theorem signalAdvance (d : DeckNo) : p.KeepsSeats (q.signalAdvance d) := by
  unfold Part.signalAdvance
  split
  · next advances =>
    obtain ⟨-, recorder⟩ := Bool.and_eq_true_iff.1 advances
    exact h.recorderAdvanced (eq_of_beq recorder)
  · exact h

theorem endOpenEvent : p.KeepsSeats q.endOpenEvent := by
  unfold Part.endOpenEvent
  split
  · next recorder _ => exact ((h.modEds _).wantRecordOff (Part.role_of_recorder recorder)).ite (h.modEds _)
  · exact h

theorem takeTrigger : p.KeepsSeats q.takeTrigger := h.endOpenEvent.ite h.takeRelease

theorem recordReport (d : DeckNo) (f : Frame) (refused : Bool) (label : RawLabel) :
    p.KeepsSeats (q.recordReport d f refused label) := by
  unfold Part.recordReport
  split
  · exact h
  · refine ite ?_ h
    split
    · exact h.modSlot _ _
    · exact h.modSlot _ _
    · exact (h.failEvent _).ite h
    · exact h

theorem deckReported (d : DeckNo) (f : Frame) (refused : Bool) (label : RawLabel) :
    p.KeepsSeats (q.deckReported d f refused label) :=
  (h.cueReport d f refused).recordReport d f refused label

theorem tickPostroll : p.KeepsSeats q.tickPostroll := ((h.modEds _).endPostroll.ite (h.modEds _)).ite h

/-! ### Signals that fail an event, the guard, all-stop (R146, R148 to R150) -/

theorem lineChanged (d : DeckNo) : p.KeepsSeats (q.lineChanged d) := by
  unfold Part.lineChanged
  refine ite ?_ h
  split
  · exact h.failEvent _
  · exact h

theorem chaseLost (why : Reason) : p.KeepsSeats (q.chaseLost why) := (h.failEvent why).ite h
theorem syncLost : p.KeepsSeats q.syncLost := (h.failEvent .syncLost).ite h
theorem tripGuard : p.KeepsSeats q.tripGuard := (h.raise .guardTrip).failEvent .refLost
theorem judgeGuard : p.KeepsSeats q.judgeGuard := h.tripGuard.ite h
theorem tickGuard : p.KeepsSeats q.tickGuard := (h.modEds _).judgeGuard.ite h

theorem lockLeft : p.KeepsSeats q.lockLeft := by
  unfold Part.lockLeft
  split
  · exact h.failEvent _
  · exact (h.modEds _).judgeGuard
  · exact h

theorem lockEntered (jump : Bool) : p.KeepsSeats (q.lockEntered jump) := by
  unfold Part.lockEntered
  extract_lets guarded
  have guards : p.KeepsSeats guarded := (h.tripGuard.ite h.stopGuard).ite h
  split
  · exact guards.leaveCue
  · exact guards.leaveHold
  · exact guards

theorem edsStandardChange : p.KeepsSeats q.edsStandardChange := h.failEvent .standardChange
theorem edsCountingChange : p.KeepsSeats q.edsCountingChange := h

/-- Record OFF is written to the recorder's port alone (R103). -/
theorem portAllStop (d : DeckNo) : p.KeepsSeats (q.portAllStop d) := by
  have stopped : q.KeepsSeats ((q.dropDirect d).wantTransport d .stop) := ((refl q).dropDirect d).wantTransport d .stop
  unfold Part.portAllStop
  split
  · exact h
  · exact h.trans stopped
  · next recorder => exact h.trans (stopped.wantRecordOff ((stopped.role d).trans recorder))

theorem allStop : p.KeepsSeats q.allStop := (h.abortEvent .allStop).each _ _ fun d _ k => k.portAllStop d

/-! ### The chase (R108 to R115) -/

theorem loseChase (d : DeckNo) (e : Int) (why : Reason) : p.KeepsSeats (q.loseChase d e why) :=
  (h.modDeck d (fun k => { k with chase := { k.chase with state := .lost, error := e, lockCount := 0 } }) rfl).chaseLost why

theorem computeWith (d e : DeckNo) : p.KeepsSeats (q.computeWith d e) := by
  unfold Part.computeWith
  extract_lets own error speed judged
  have judges : p.KeepsSeats judged := wantSpeed (modDeck h d _ (by exact rfl)) d speed
  exact (h.loseChase d _ _).ite (judges.syncLost.ite judges)

theorem compute (d : DeckNo) : p.KeepsSeats (q.compute d) := by
  unfold Part.compute
  split
  · exact h
  · exact (h.computeWith d _).ite h

theorem positionMeasured (d : DeckNo) : p.KeepsSeats (q.positionMeasured d) := ((h.modChase d _).ite (h.compute d)).ite h

theorem computeHeld (d : DeckNo) : p.KeepsSeats (q.computeHeld d) :=
  (((h.modChase d _).compute d).ite (h.modChase d _)).ite h

theorem loseStale (d : DeckNo) : p.KeepsSeats (q.loseStale d) := (h.loseChase d _ _).ite h

theorem positionStale (d : DeckNo) : p.KeepsSeats (q.positionStale d) :=
  (h.each _ _ fun e _ k => k.loseStale e).ite (h.loseStale d)

/-! ### Tape positions and marks (R62, R64 to R74) -/

theorem judgeStale (d : DeckNo) : p.KeepsSeats (q.judgeStale d) :=
  ((h.modDeck d (fun k => { k with position := k.position.invalidated }) rfl).positionStale d).ite h

theorem advanceRecord (d : DeckNo) : p.KeepsSeats (q.advanceRecord d) := (h.modDeck d _ rfl).judgeStale d

theorem pushMark (m : Mark) : p.KeepsSeats (q.pushMark m) := by
  unfold Part.pushMark
  dsimp only
  split <;> exact h

theorem capture (d : DeckNo) (g : Fin 4) : p.KeepsSeats (q.capture d g) := (h.pushMark _).ite (h.raise .markRefused)

theorem vitcMeasurement (d : DeckNo) (x : Reading) : p.KeepsSeats (q.vitcMeasurement d x) :=
  ite (ite ((h.modDeck d _ rfl).positionMeasured d) (h.modDeck d _ rfl)) h

theorem useDeckReply (d : DeckNo) (position field : Nat) (src : TcSource) :
    p.KeepsSeats (q.useDeckReply d position field src) :=
  ite ((h.modDeck d _ rfl).positionMeasured d) (h.modDeck d _ rfl)

theorem deckMeasurement (d : DeckNo) (label : RawLabel) (src : TcSource) (field : Nat) :
    p.KeepsSeats (q.deckMeasurement d label src field) := by
  unfold Part.deckMeasurement
  refine ite ?_ h
  split
  · exact h.useDeckReply d _ _ _
  · exact h

theorem countingChanged : p.KeepsSeats q.countingChanged := fun d =>
  (congrArg Deck.seat (Table.get_map Deck.countingChanged q.decks d)).trans (h d)

theorem standardChangeEvent : p.KeepsSeats q.standardChangeEvent := (h.countingChanged.modTcu _).edsStandardChange

theorem configureTimecode (df : Bool) (f : DeckNo → Preference) : p.KeepsSeats (q.configureTimecode df f) := by
  have stored : p.KeepsSeats (q.setPreferences f) := h.each _ _ fun d _ k => k.modDeck d _ rfl
  exact stored.ite (stored.modTcu _).countingChanged.edsCountingChange

/-! ### Deck lines (R94 to R100) -/

theorem sendItem (d : DeckNo) (i : Item) : p.KeepsSeats (q.sendItem d i) := by
  have kept (k : Deck) (f : Frame) : (k.sentWith f).seat = k.seat := by cases f <;> rfl
  refine (h.modDeck d _ ?_).modPort d _
  cases i <;> exact kept _ _

theorem arbitrate (d : DeckNo) : p.KeepsSeats (q.arbitrate d) := by
  unfold Part.arbitrate
  refine ite h ?_
  split
  · exact h.sendItem d _
  · exact h

theorem timeoutNotices (x y : LineState) : p.KeepsSeats (q.timeoutNotices x y) :=
  h.ite (((h.raise .deckTimeout).raise .deckAbsent).ite (h.raise .deckTimeout))

theorem timeout (d : DeckNo) : p.KeepsSeats (q.timeout d) := by
  unfold Part.timeout
  extract_lets before counted after told
  have counts : p.KeepsSeats counted := (h.modPort d _).modDeck d _ (by split <;> rfl)
  have tells : p.KeepsSeats told := counts.timeoutNotices before after
  exact (tells.ite (tells.lineChanged d)).ite (tells.modPort d _)

theorem judgeDeadline (d : DeckNo) : p.KeepsSeats (q.judgeDeadline d) := (h.timeout d).ite h

theorem atSlotLine (d : DeckNo) : p.KeepsSeats (q.atSlotLine d) := ((h.judgeDeadline d).modPort d _).arbitrate d

theorem replyNotices (x : LineState) (y : DeckReply) : p.KeepsSeats (q.replyNotices x y) := by
  unfold Part.replyNotices
  extract_lets told
  have tells : p.KeepsSeats told := (h.raise .deckLocal).ite h
  exact (tells.raise .deckRefused).ite tells

theorem goodReply (d : DeckNo) (x : Flight) (y : DeckReply) : p.KeepsSeats (q.goodReply d x y) := by
  have replied (k : Deck) : (k.replied x.frame y).seat = k.seat := by
    unfold Deck.replied
    dsimp only
    split
    · cases x.frame <;> rfl
    · rfl
  unfold Part.goodReply
  extract_lets before measured reported
  have measures : p.KeepsSeats measured :=
    (((h.modPort d _).modDeck d _ (replied _)).replyNotices before y).deckMeasurement d _ _ _
  have reports : p.KeepsSeats reported := measures.deckReported d _ _ _
  exact reports.ite (reports.lineChanged d)

/-! ### Inputs (R44, R50, R51) -/

theorem deliver (i : Input) (x : Reading) : p.KeepsSeats (q.deliver i x) := by
  unfold Part.deliver
  split
  · exact h.vitcMeasurement _ x
  · exact h

theorem inputNotice (x y : SiuState) : p.KeepsSeats (q.inputNotice x y) := by
  unfold Part.inputNotice
  (repeat' split) <;> exact h

theorem deliverAtEntry (i : Input) (x : SiuState) : p.KeepsSeats (q.deliverAtEntry i x) := by
  unfold Part.deliverAtEntry
  split
  · exact h.ite (h.deliver i _)
  · exact h

theorem inputGood (i : Input) : p.KeepsSeats (q.inputGood i) := ((h.modSiu i _).inputNotice _ _).deliverAtEntry i _

theorem inputBad (i : Input) (judge : Siu → Siu) : p.KeepsSeats (q.inputBad i judge) := (h.modSiu i judge).inputNotice _ _

theorem slip (i : Input) (field line : Nat) : p.KeepsSeats (q.slip i field line) :=
  (((h.modSiu i _).modSiu i _).raise .inputWindow).ite (h.modSiu i _)

theorem formReading (i : Input) (x y : VitcLine) : p.KeepsSeats (q.formReading i x y) := by
  unfold Part.formReading
  extract_lets s reading formed
  have forms : p.KeepsSeats formed := h
  split
  · exact forms.deliver i _
  · exact forms

/-! ### The RTU (R6 to R14) -/

theorem takeStandard (std : Standard) : p.KeepsSeats (q.takeStandard std) :=
  standardChangeEvent (q := { (q.modRtu fun r => { r with std := std }).raise .standardChange with
    sius := q.sius.map Siu.standardTaken }) h

theorem detectStandard (std : Standard) : p.KeepsSeats (q.detectStandard std) := by
  have detected := (h.modRtu fun r => { r with lock := .acquire, candidate := some std, run := 1, miss := 0 }).raise
    .standardChange
  exact (detected.lockLeft.ite detected).standardChangeEvent

theorem enterLocked (std : Standard) (f : FieldId) : p.KeepsSeats (q.enterLocked std f) := by
  unfold Part.enterLocked
  extract_lets locked changed settled jump snapped
  have settles : p.KeepsSeats settled := (takeStandard (q := locked) h std).ite h
  have snaps : p.KeepsSeats snapped := ((settles.modRtu _).raise .refJump).ite settles
  exact (((snaps.modPku _).ite snaps).modTcu _).lockEntered jump

theorem countMiss : p.KeepsSeats q.countMiss := (h.modRtu _).ite ((h.modRtu _).raise .refLost).lockLeft

theorem judgeGood (std : Standard) (f : FieldId) : p.KeepsSeats (q.judgeGood std f) := by
  unfold Part.judgeGood
  split
  · exact h
  · exact (h.modRtu _).ite ((h.modRtu _).ite (h.enterLocked std f))
  · exact (h.detectStandard std).ite ((h.modRtu _).ite h.countMiss)
  · exact (h.detectStandard std).ite ((h.modRtu _).ite (h.enterLocked std f))

theorem judgeBad : p.KeepsSeats q.judgeBad := by
  unfold Part.judgeBad
  split
  · exact h
  · exact (h.modRtu _).ite (h.modRtu _)
  · exact h.countMiss
  · exact h

theorem refBad : p.KeepsSeats q.refBad := (h.modRtu _).judgeBad

theorem refClosed (obs : FieldObs) : p.KeepsSeats (q.refClosed obs) := by
  have opens : p.KeepsSeats (q.refReference obs.closing) := h
  unfold Part.refClosed
  split
  · exact opens
  · split
    · exact opens.judgeGood _ _
    · exact opens.judgeBad

end

end Part.KeepsSeats

/-! ### The work of a field start (R62, R74, R108, R136, R140, R145, R149, R174) -/

namespace FieldCtx

variable {p : Part} {x : FieldCtx}

theorem judgeEdge_keepsSeats (h : p.KeepsSeats x.part) (n : Fin 4) : p.KeepsSeats (x.judgeEdge n).part := by
  unfold FieldCtx.judgeEdge FieldCtx.handEdge
  dsimp only
  split
  · have accepts := h.modGtu fun u => { u with gpis := u.gpis.set n (u.gpis.get n).accept }
    split
    · split
      · exact accepts
      · split
        · exact accepts.capture _ _
        · exact accepts
      · exact accepts.takeTrigger
      · exact accepts.allStop
    · exact accepts
  · exact h

theorem react_keepsSeats (h : p.KeepsSeats x.part) (d : DeckNo) (r : Reaction) : p.KeepsSeats (x.react d r).part := by
  cases r with
  | sequencer => exact h.signalAdvance d
  | captures =>
    simp only [FieldCtx.react, FieldCtx.releaseHeld]
    exact List.foldlRecOn _ _ h fun q k m _ => k.capture m.1 m.2
  | chase e =>
    simp only [FieldCtx.react, FieldCtx.computeReady]
    split
    · exact h.computeHeld e
    · exact h

theorem work_keepsSeats (h : p.KeepsSeats x.part) (began : Phase) (w : FieldWork) :
    p.KeepsSeats (x.work began w).part := by
  cases w with
  | advance d first =>
    exact List.foldlRecOn (motive := fun y : FieldCtx => p.KeepsSeats y.part) _ _ (h.advanceRecord d)
      fun y k r _ => react_keepsSeats k d r
  | cueTimers =>
    simp only [FieldCtx.work]
    split
    · exact h.tickCueTimers
    · exact h
  | rollPlays => exact h.each _ _ fun d _ k => k.rollPlay d
  | postroll =>
    simp only [FieldCtx.work]
    split
    · exact h.tickPostroll
    · exact h
  | guard => exact h.tickGuard
  | autoTake => exact h
  | gpi n => exact judgeEdge_keepsSeats (x := { x with part := x.part.modGtu _ }) h n

end FieldCtx

theorem Part.KeepsSeats.fieldWork {p q : Part} (h : p.KeepsSeats q) (asked : List FieldWork) :
    p.KeepsSeats (q.fieldWork asked) :=
  List.foldlRecOn (motive := fun y : FieldCtx => p.KeepsSeats y.part) _ _ h fun _ k w _ =>
    FieldCtx.work_keepsSeats k _ w

end Sys2Proof.Machine
end

section
/-! ## The deck assignment (O32)

What an assignment writes (R81, R82) and what it is refused for (R80). -/

namespace Sys2Proof.Machine

open Sys2Proof

/-- A deck other than d holds this video input (R80). -/
def Part.InputElsewhere (p : Part) (d : DeckNo) (v : Option Input) : Prop :=
  v ≠ none ∧ ∃ e, e ≠ d ∧ (p.deck e).input = v

/-- The deck d asks to be a second RECORDER (R80). -/
def Part.SecondRecorder (p : Part) (d : DeckNo) (r : Role) : Prop :=
  r = .recorder ∧ ∃ e, e ≠ d ∧ (p.deck e).role = .recorder

/-- A slot that depends on a deck is ARMED, and returns to LOADED (R82, R130). -/
theorem Slot.disarmed_of_dependsOn {x : Slot} {d : DeckNo} {recorder : Bool} (h : x.dependsOn d recorder = true) :
    x.disarmed = { x with state := .loaded, arm := none } := by
  obtain ⟨armed, -⟩ := Bool.and_eq_true_iff.1 h
  rw [Slot.disarmed, eq_of_beq armed]

section
variable (p : Part) (d : DeckNo) (r : Role) (v : Option Input)

theorem Part.inputTaken_iff : (v.any fun i => p.inputTaken d i) = true ↔ p.InputElsewhere d v := by
  cases v with
  | none => simp [Part.InputElsewhere]
  | some i => simp [Part.InputElsewhere, Part.inputTaken, mem_allDecks]

theorem Part.otherRecorder_iff : r = .recorder ∧ p.otherRecorder d = true ↔ p.SecondRecorder d r := by
  simp [Part.SecondRecorder, Part.otherRecorder, mem_allDecks]

/-- A record level is still wanted of a deck that neither gains nor loses RECORDER; the last-sent level is forgotten of one
that gains it, the direct command of one that loses its role (R81). -/
theorem Deck.assigned_eq (k : Deck) : k.assigned r v = { k with
    role := r, input := v
    wantRecord := if (r = .recorder) = (k.role = .recorder) then k.wantRecord else false
    sentRecord := if r = .recorder ∧ k.role ≠ .recorder then none else k.sentRecord
    direct := if r = .noRole ∧ k.role ≠ .noRole then none else k.direct } := by
  by_cases gets : r = .recorder <;> by_cases had : k.role = .recorder <;> simp [Deck.assigned, gets, had]

/-- The part after an accepted assignment: the deck record, the prescaler of a port that gains a role, and the slots
(R81, R82). -/
theorem Part.assignDeck_part : (p.assignDeck d r v).1 = { p with
    decks := p.decks.modify d (·.assigned r v)
    ports :=
      if r ≠ .noRole ∧ (p.deck d).role = .noRole then p.ports.modify d fun q => { q with prescaler := 1 } else p.ports
    eds := (p.disarmDependents d ((p.deck d).role == .recorder || r == .recorder)).eds } := by
  unfold Part.assignDeck
  dsimp only
  split <;> rfl

theorem Part.assignDeck_deck (e : DeckNo) :
    (p.assignDeck d r v).1.deck e = (p.modDeck d (·.assigned r v)).deck e := by
  rw [Part.assignDeck_part]
  rfl

/-- A port whose deck gains a role polls at its next slot line (R81). -/
theorem Part.assignDeck_port_self : (p.assignDeck d r v).1.port d = { p.port d with
    prescaler := if r ≠ .noRole ∧ (p.deck d).role = .noRole then 1 else (p.port d).prescaler } := by
  rw [Part.assignDeck_part, Part.port]
  dsimp only
  split
  · exact Table.get_modify_self _ _ _
  · rfl

theorem Part.assignDeck_port_ne {e : DeckNo} (other : e ≠ d) : (p.assignDeck d r v).1.port e = p.port e := by
  rw [Part.assignDeck_part, Part.port]
  dsimp only
  split
  · exact Table.get_modify_ne _ _ other
  · rfl

theorem Part.assignDeck_slot (n : SlotNo) : (p.assignDeck d r v).1.slot n =
    if (p.slot n).dependsOn d ((p.deck d).role == .recorder || r == .recorder)
    then { p.slot n with state := .loaded, arm := none } else p.slot n := by
  rw [Part.assignDeck_part]
  refine (Table.get_map _ _ n).trans (ite_congr rfl (fun depends => ?_) fun _ => rfl)
  exact Slot.disarmed_of_dependsOn depends

/-- The checks in the order of R80. -/
theorem Part.askAssign_eq [Decidable (p.InputElsewhere d v)] [Decidable (p.SecondRecorder d r)] : p.askAssign d r v =
    if p.InputElsewhere d v then (p, .badValue 3)
    else if p.inActiveEvent d then (p, .busy)
    else if p.SecondRecorder d r then (p, .state)
    else p.assignDeck d r v := by
  simp only [Part.askAssign, Part.inputTaken_iff, Part.otherRecorder_iff]

end

theorem exec_deckAssign_eq {off role code : Nat} {d : DeckNo} {r : Role} {v : Option Input} (role_eq : roleOf role = some r)
    (input_eq : videoInputOf code = some v) (s : State) :
    exec (.deckAssign off d.val role code) s = dispatched s 0x40 off (s.part.askAssign d r v) := by
  simp only [exec, execDeckAssign, deckOf_val, role_eq, input_eq]

/-- Settles O32: the checks one by one, and what the assignment writes. -/
theorem deckAssigned : Obligations.DeckAssigned := by
  intro s off role code d r v role_eq input_eq sent elsewhere second old touched hit answer
  have asks : exec sent s = dispatched s 0x40 off (s.part.askAssign d r v) := exec_deckAssign_eq role_eq input_eq s
  classical
  rw [asks, Part.askAssign_eq]
  refine ⟨fun taken => ?_, fun free busy => ?_, fun free idle two => ?_, fun free idle one => ?_⟩
  · rw [if_pos (show s.part.InputElsewhere d v from taken)]
    rfl
  all_goals rw [if_neg (show ¬ s.part.InputElsewhere d v from free)]
  · rw [if_pos busy]
    rfl
  all_goals rw [idle, if_neg Bool.false_ne_true]
  · rw [if_pos (show s.part.SecondRecorder d r from two)]
    rfl
  · rw [if_neg (show ¬ s.part.SecondRecorder d r from one)]
    refine ⟨(s.part.assignDeck d r v).1, rfl, ?_, s.part.assignDeck_port_self d r v,
      fun e other => ⟨?_, s.part.assignDeck_port_ne d r v other⟩, s.part.assignDeck_slot d r v, ?_⟩
    · rw [Part.assignDeck_deck, Part.modDeck_deck_self, Deck.assigned_eq]
    · rw [Part.assignDeck_deck, Part.modDeck_deck_ne _ _ other]
    · rw [Part.assignDeck_part]
      rfl

end Sys2Proof.Machine
end

section
/-! ## The deck table stays sound (O34) -/

namespace Sys2Proof.Machine

open Sys2Proof

/-! ### The invariant -/

/-- At most one deck has a record of this kind. -/
def Part.AtMostOne (p : Part) (P : Deck → Prop) : Prop := ∀ d e, P (p.deck d) → P (p.deck e) → d = e

theorem Part.atMostOne_iff (p : Part) (P : Deck → Prop) [DecidablePred P] :
    (allDecks.filter fun d => P (p.deck d)).length ≤ 1 ↔ p.AtMostOne P := by
  rw [← List.toFinset_card_of_nodup (allDecks_nodup.filter _), Finset.card_le_one]
  simp only [List.mem_toFinset, List.mem_filter, mem_allDecks, true_and, decide_eq_true_eq]
  exact ⟨fun h d e x y => h d x e y, fun h d x e y => h d e x y⟩

/-- A record changed into this kind leaves one deck of the kind, where no other deck was of it. -/
theorem Part.AtMostOne.modDeck {p : Part} {P : Deck → Prop} (h : p.AtMostOne P) (d : DeckNo) (f : Deck → Deck)
    (alone : P (f (p.deck d)) → ∀ e, e ≠ d → ¬ P (p.deck e)) : (p.modDeck d f).AtMostOne P := by
  have others {e : DeckNo} (other : e ≠ d) (new : P ((p.modDeck d f).deck e)) : P (p.deck e) := by
    rwa [Part.modDeck_deck_ne _ _ other] at new
  have own (new : P ((p.modDeck d f).deck d)) : P (f (p.deck d)) := by rwa [Part.modDeck_deck_self] at new
  intro x y hx hy
  by_cases atX : x = d <;> by_cases atY : y = d
  · exact atX.trans atY.symm
  · subst atX
    exact absurd (others atY hy) (alone (own hx) y atY)
  · subst atY
    exact absurd (others atX hx) (alone (own hy) x atX)
  · exact h x y (others atX hx) (others atY hy)

/-- One RECORDER, one deck per input, and record ON wanted of the RECORDER alone (R79 to R81, R94). -/
structure Part.TableSound (p : Part) : Prop where
  recorder : p.AtMostOne (·.role = .recorder)
  input : ∀ i, p.AtMostOne (·.input = some i)
  wanted : ∀ d, (p.deck d).wantRecord = true → (p.deck d).role = .recorder

theorem Part.tableSound_iff (p : Part) : p.tableSound = true ↔ p.TableSound := by
  have inputs (i : Input) : i ∈ allInputs := by cases i <;> decide
  have recorders := p.atMostOne_iff (·.role = .recorder)
  have holders (i : Input) := p.atMostOne_iff (·.input = some i)
  simp only [Part.tableSound, Bool.and_eq_true, List.all_eq_true, decide_eq_true_eq, Bool.or_eq_true, Bool.not_eq_true',
    beq_iff_eq, ← Bool.beq_eq_decide_eq] at recorders holders ⊢
  constructor
  · rintro ⟨⟨recorder, input⟩, wanted⟩
    refine ⟨recorders.1 recorder, fun i => (holders i).1 (input i (inputs i)), fun d on => ?_⟩
    exact (wanted d (mem_allDecks d)).resolve_left (by simp [on])
  · rintro ⟨recorder, input, wanted⟩
    refine ⟨⟨recorders.2 recorder, fun i _ => (holders i).2 (input i)⟩, fun d _ => ?_⟩
    cases on : (p.deck d).wantRecord with
    | false => exact .inl rfl
    | true => exact .inr (wanted d on)

namespace Part.TableSound

variable {p q : Part}

/-- The table is sound by its seats. -/
theorem of_seats (h : p.TableSound) (k : p.KeepsSeats q) : q.TableSound where
  recorder d e := by simpa only [k.role] using h.recorder d e
  input i d e := by simpa only [k.input] using h.input i d e
  wanted d on := by
    by_contra other
    have stray : (p.deck d).seat.2.2 = true := by
      rw [← k d]
      simp [Deck.seat, on, other]
    obtain ⟨was, role⟩ := Bool.and_eq_true_iff.1 stray
    exact bne_iff_ne.1 role (h.wanted d was)

theorem resetWith (p : Part) (c : ResetCause) : (p.resetWith c).TableSound :=
  (Part.tableSound_iff _).1 (by cases c <;> rfl)

theorem applyFullReset (p : Part) : p.applyFullReset.TableSound :=
  (resetWith p .command).of_seats (((Part.KeepsSeats.refl _).modPku _).modRtu _)

theorem fieldStart (h : p.TableSound) (pins : BitVec 4) (asked : List FieldWork) : (p.fieldStart pins asked).TableSound := by
  cases pending : p.pku.fullPending with
  | false =>
    rw [Part.fieldStart_eq _ _ _ pending]
    have opened : p.KeepsSeats (p.opened pins) := fun d => by rw [Part.opened_deck]
    exact h.of_seats (opened.fieldWork asked)
  | true =>
    have applies : (p.modGtu fun g => { g with pins := pins }).pku.fullPending = true := pending
    rw [Part.fieldStart]
    simp only [applies, if_true]
    exact applyFullReset _

/-- The input is free and no second deck becomes RECORDER; a deck that gains or loses RECORDER is wanted OFF (R80, R81). -/
theorem assignDeck (h : p.TableSound) {d : DeckNo} {r : Role} {v : Option Input}
    (free : ¬ p.InputElsewhere d v) (single : ¬ p.SecondRecorder d r) : (p.assignDeck d r v).1.TableSound := by
  have written : (p.modDeck d (·.assigned r v)).TableSound := by
    refine ⟨h.recorder.modDeck d _ fun gains e other is => single ⟨gains, e, other, is⟩, fun i => ?_, fun e on => ?_⟩
    · exact (h.input i).modDeck d _ fun takes e other holds =>
        free ⟨by rw [show v = some i from takes]; simp, e, other, holds.trans takes.symm⟩
    · by_cases here : e = d
      · subst here
        rw [Part.modDeck_deck_self, Deck.assigned_eq] at on ⊢
        dsimp only at on ⊢
        split at on
        · next same => exact same ▸ h.wanted e on
        · exact absurd on Bool.false_ne_true
      · rw [Part.modDeck_deck_ne _ _ here] at on ⊢
        exact h.wanted e on
  exact written.of_seats fun e => congrArg Deck.seat (p.assignDeck_deck d r v e)

theorem askAssign (h : p.TableSound) (d : DeckNo) (r : Role) (v : Option Input) : (p.askAssign d r v).1.TableSound := by
  classical
  rw [Part.askAssign_eq]
  split
  · exact h
  · next free =>
    split
    · exact h
    · split
      · exact h
      · next single => exact h.assignDeck free single

end Part.TableSound

/-! ### Every command -/

/-- The command leads from a sound deck table to a sound one. -/
def State.KeepsTable (s : State) (o : Host.Outcome State Fault Refusal) : Prop :=
  ∀ t, o = .next t → s.part.TableSound → t.part.TableSound

namespace State.KeepsTable

variable {s : State}

theorem ends {p : Part} (h : s.part.TableSound → p.TableSound) : s.KeepsTable (Machine.ran s p) := by
  rintro t ⟨⟩
  exact h

theorem ran {p : Part} (h : s.part.KeepsSeats p) : s.KeepsTable (Machine.ran s p) := .ends fun sound => sound.of_seats h

/-- A reply is no seat. -/
theorem answered {r : Part × Answer} (k o : Nat) (h : s.part.KeepsSeats r.1) : s.KeepsTable (dispatched s k o r) :=
  .ran (p := r.1.reply k o r.2) h

theorem accepted {p : Part} {a : Answer} (k o : Nat) (h : s.part.KeepsSeats p) :
    s.KeepsTable (dispatched s k o (p, a)) :=
  .answered k o h

end State.KeepsTable

section
variable (s : State)

theorem execTcConfig_keepsTable (off df a b c d : Nat) : s.KeepsTable (execTcConfig off df a b c d s) := by
  have start := Part.KeepsSeats.refl s.part
  unfold execTcConfig
  split
  · split
    · exact .accepted _ _ start
    · exact .accepted _ _ (start.configureTimecode _ _)
  · exact .accepted _ _ start

theorem execMarkPush_keepsTable (off deck : Nat) (x : LabelChoice) : s.KeepsTable (execMarkPush off deck x s) := by
  have start := Part.KeepsSeats.refl s.part
  unfold execMarkPush Part.pushLabel Part.pushNow
  split
  · exact .accepted _ _ start
  · split
    · split
      · exact .accepted _ _ start
      · exact .accepted _ _ (start.pushMark _)
    · split
      · exact .accepted _ _ (start.pushMark _)
      · exact .accepted _ _ start
    · exact .accepted _ _ start

/-- An assignment that is made is free of what R80 refuses. -/
theorem execDeckAssign_keepsTable (off deck role input : Nat) : s.KeepsTable (execDeckAssign off deck role input s) := by
  unfold execDeckAssign
  split
  · next d r v _ _ _ => exact .ends fun sound => (sound.askAssign d r v).of_seats (.refl _)
  · exact .accepted _ _ (.refl _)

theorem execDeckParams_keepsTable (off deck a b c d e f : Nat) :
    s.KeepsTable (execDeckParams off deck a b c d e f s) := by
  unfold execDeckParams
  dsimp only
  split
  · exact .accepted _ _ (.refl _)
  · split
    · exact .accepted _ _ (.refl _)
    · exact .accepted _ _ ((Part.KeepsSeats.refl _).modDeck _ _ rfl)

theorem execDeckDirect_keepsTable (off deck command : Nat) (v : Int) (l : RawLabel) :
    s.KeepsTable (execDeckDirect off deck command v l s) := by
  unfold execDeckDirect Part.askDirect
  split
  · split
    · exact .accepted _ _ (.refl _)
    · split
      · exact .accepted _ _ (.refl _)
      · exact .accepted _ _ ((Part.KeepsSeats.refl _).modDeck _ _ rfl)
  · exact .accepted _ _ (.refl _)

theorem execEventArm_keepsTable (off slot : Nat) : s.KeepsTable (execEventArm off slot s) := by
  unfold execEventArm
  split
  · exact .accepted _ _ (.refl _)
  · exact .answered _ _ ((Part.KeepsSeats.refl _).armSlot _)

theorem execListRun_keepsTable (off slot : Nat) : s.KeepsTable (execListRun off slot s) := by
  unfold execListRun
  split
  · exact .accepted _ _ (.refl _)
  · exact .answered _ _ ((Part.KeepsSeats.refl _).runList _)

end

/-- Only DECK_ASSIGN and the resets change a seat, and they leave the table sound. -/
theorem exec_keepsTable (i : Instr) (s : State) : s.KeepsTable (exec i s) := by
  have start := Part.KeepsSeats.refl s.part
  cases i with
  | powerOn => exact .ends fun _ => .resetWith _ _
  | resetLine => exact .ends fun _ => .resetWith _ _
  | fieldStart pins order => exact .ends fun sound => sound.fieldStart pins order
  | resetPartFullApply =>
    refine .ends fun sound => ?_
    split
    · exact .applyFullReset _
    · exact sound
  | deckAssign off deck role input => exact execDeckAssign_keepsTable s off deck role input
  | refFieldWellFormed obs time => exact .ran ((start.modRtu _).refClosed obs)
  | refFieldBad cause => exact .ran (start.refBad.ite start)
  | silenceJudgement => exact .ran (start.modRtu _).refBad
  | resetPartFull off scope =>
    simp only [exec, execResetPartFull, Part.askFullReset]
    split
    · split <;> exact .accepted _ _ start
    · exact .accepted _ _ start.resetEngine
    · exact .accepted _ _ start
  | resetPartEngine off => exact .accepted _ _ start.resetEngine
  | inputFieldWellFormed input obs =>
    simp only [exec, execInputFieldWellFormed]
    split
    · exact .ran ((start.inputGood input).ite (start.inputBad input _))
    · exact .ran start
  | inputFieldBad input cause => exact .ran ((start.inputBad input _).ite start)
  | inputSilenceBad input => exact .ran ((start.inputBad input _).ite start)
  | storeSlip input line =>
    simp only [exec, execStoreSlip]
    split
    · exact .ran ((start.slip _ _ _).ite start)
    · exact .ran start
  | vitcReading input first second => exact .ran (start.formReading input first second)
  | tcConfig off df a b c d => exact execTcConfig_keepsTable s off df a b c d
  | positionStale deck => exact .ran (start.judgeStale deck)
  | markPush off deck position => exact execMarkPush_keepsTable s off deck position
  | deckParams off deck a b c d e f => exact execDeckParams_keepsTable s off deck a b c d e f
  | deckDirect off deck command speed cue => exact execDeckDirect_keepsTable s off deck command speed cue
  | slotLine deck => exact .ran (start.atSlotLine deck)
  | deckReplyGood deck reply =>
    simp only [exec, execDeckReplyGood]
    split
    · exact .ran (start.goodReply deck _ reply)
    · exact .ran start
  | deckReplyBad deck =>
    simp only [exec, execDeckReplyBad]
    split
    · exact .ran (start.timeout deck)
    · exact .ran start
  | deckTimeout deck => exact .ran (start.judgeDeadline deck)
  | eventArm off slot => exact execEventArm_keepsTable s off slot
  | listRun off slot => exact execListRun_keepsTable s off slot
  | cueTimeout deck => exact .ran (start.judgeCueTimer deck)
  | release off => exact .accepted _ _ start.takeRelease
  | rollPlayDue deck => exact .ran (start.rollPlay deck)
  | endOpen off =>
    simp only [exec, execEndOpen]
    split
    · exact .accepted _ _ start.endOpenEvent
    · exact .accepted _ _ start
  | postrollEnd => exact .ran (start.endPostroll.ite start)
  | abort off =>
    simp only [exec, execAbort]
    split
    · exact .accepted _ _ start
    · exact .accepted _ _ (start.abortEvent _)
  | guardTrip => exact .ran start.judgeGuard
  | gpiAcceptedEdge n =>
    exact .ran (FieldCtx.judgeEdge_keepsSeats (x := { part := s.part, advanced := allDecks, held := [] }) start n)
  | activeSetTake =>
    refine .ran ?_
    unfold Part.takeActiveSet
    dsimp only
    split <;> exact start
  | refFieldOpened | statusBlockWrite | replyRecordWrite | inputFieldReference | inputNoSignal | frameSendEnd
    | autoTakeEnd => exact .ran start
  | packetBadFormat | packetUnknownKind | packetWrongLength | ctrlLines | markClear | guardLimit =>
    exact .answered _ _ start
  | clearNotices | noticeMask | inputConfig | substPolicy | markPop | deckRead | chaseParams | eventLoad | eventClear
    | eventRead | listStop | xptSet | keyParams | autoTake | patternLoad | curveLoad | gpiConfig | tallyConfig =>
    -- What these write stands beside the deck table, in every branch of their checks.
    simp only [exec, execClearNotices, execNoticeMask, execInputConfig, execSubstPolicy, execMarkPop, execDeckRead,
      execChaseParams, execEventLoad, Part.loadEvent, execEventClear, Part.clearSlot, execEventRead, execListStop,
      execXptSet, execKeyParams, execAutoTake, Part.hostMix, execPatternLoad, execCurveLoad, execGpiConfig,
      execTallyConfig]
    (repeat' split) <;> exact .answered _ _ start

/-- Settles O34: an idle step seats no deck, and a command keeps the deck table sound. -/
theorem deckTableStaysSound : Obligations.DeckTableStaysSound := by
  intro s t sound leads
  rw [Part.tableSound_iff] at sound ⊢
  obtain ⟨p, pending⟩ := s
  cases pending with
  | nil =>
    obtain rfl := Host.Outcome.next.inj leads
    exact sound.of_seats (.refl p)
  | cons c rest => exact exec_keepsTable c { part := p, pending := rest } t leads sound

end Sys2Proof.Machine
end

section
/-! ## A direct command (O35) -/

namespace Sys2Proof.Machine

open Sys2Proof

/-- DECK_DIRECT with a deck, a command and a label that are in order is put to the checks of R104. -/
theorem exec_deckDirect (s : State) (off : Nat) {code : Nat} (d : DeckNo) {c : DirectCommand} (speed : Int) {raw : RawLabel}
    {l : Label} {n : Bool} (command : directOf code = some c) (label : readLabel s.part.counting raw = some (l, n)) :
    exec (.deckDirect off d.val code speed raw) s
      = dispatched s 0x43 off (s.part.askDirect d (directFor c speed l) n) := by
  show execDeckDirect off d.val code speed raw s = _
  simp only [execDeckDirect, deckOf_val, command, label]

section
variable {p : Part} {d : DeckNo} (x : Direct) (n : Bool)

/-- A deck that is held or has a direct command pending is BUSY. -/
theorem Part.askDirect_busy (h : p.inActiveEvent d = true ∨ (p.deck d).direct ≠ none) :
    p.askDirect d x n = (p, .busy) :=
  if_pos (by simpa [Option.isSome_iff_ne_none] using h)

variable (outside : p.inActiveEvent d = false) (free : (p.deck d).direct = none)
include outside free

/-- A deck of role NONE is answered STATE. -/
theorem Part.askDirect_state (role : (p.deck d).role = .noRole) : p.askDirect d x n = (p, .state) := by
  simp [Part.askDirect, outside, free, role]

/-- Every other deck takes the command. -/
theorem Part.askDirect_taken (role : (p.deck d).role ≠ .noRole) :
    p.askDirect d x n
      = (p.modDeck d fun k => { k with direct := some x }, { Answer.accepted with normalised := n }) := by
  simp [Part.askDirect, outside, free, role]

end

/-- Settles O35: the three answers of the checks of R104. -/
theorem directCommandLeft : Obligations.DirectCommandLeft := by
  intro s off code d c speed raw l n command label left answer
  rw [exec_deckDirect s off d speed command label]
  refine ⟨fun outside free role => ?_, fun held => ?_, fun outside free role => ?_⟩
  · rw [Part.askDirect_taken _ n outside free role]
    rfl
  · rw [Part.askDirect_busy _ n held]
    rfl
  · rw [Part.askDirect_state _ n outside free role]
    rfl

end Sys2Proof.Machine
end

section
/-! ## Laws: a timeout (R100)

What a timeout is in each of its three cases, and what it leaves for the arbitration that follows it. -/

namespace Sys2Proof.Machine

open Sys2Proof

theorem Part.modPort_modPort (p : Part) (d : DeckNo) (f g : Port → Port) :
    (p.modPort d f).modPort d g = p.modPort d fun q => g (f q) := by
  have ports : (p.ports.modify d f).modify d g = p.ports.modify d fun q => g (f q) := Table.modify_modify ..
  exact congrArg (fun t : Table Port 4 => { p with ports := t }) ports

/-- The part with the transaction of a port ended. -/
def Part.freed (p : Part) (d : DeckNo) : Part := p.modPort d fun q => { q with flight := none }

/-- The deck record at a timeout, whatever the line state. -/
def Deck.missed (k : Deck) : Deck := if k.line = .absent then { k with timeouts := min 8 (k.timeouts + 1) } else k.timedOut

theorem Deck.missed_absent {k : Deck} (line : k.line = .absent) :
    k.missed = { k with timeouts := min 8 (k.timeouts + 1) } := if_pos line

theorem Deck.missed_early {k : Deck} (line : k.line ≠ .absent) (few : k.timeouts < 7) :
    k.missed = { k with timeouts := k.timeouts + 1 } := by
  rw [Deck.missed, if_neg line, Deck.timedOut, Nat.min_eq_right (by omega), if_pos (by omega)]

theorem Deck.missed_eighth {k : Deck} (line : k.line ≠ .absent) (many : 7 ≤ k.timeouts) :
    k.missed = { k with timeouts := 8, line := .absent } := by
  rw [Deck.missed, if_neg line, Deck.timedOut, Nat.min_eq_left (by omega), if_neg (by omega)]

/-- The timeout is counted in the deck record and told, and the EDS hears of a line that becomes ABSENT. -/
theorem Part.timeout_eq (p : Part) (d : DeckNo) :
    p.timeout d =
      let told := ((p.freed d).modDeck d Deck.missed).timeoutNotices (p.deck d).line (p.deck d).missed.line
      if (p.deck d).missed.line = .absent then (if (p.deck d).line = .absent then told else told.lineChanged d)
      else told.modPort d fun q => { q with prescaler := 1 } := by
  have own : ((p.freed d).modDeck d Deck.missed).deck d = (p.deck d).missed := Part.modDeck_deck_self ..
  rw [← own]
  rfl

/-- The part with the eighth timeout counted: the line ABSENT, DECK_TIMEOUT and DECK_ABSENT set. -/
def Part.absented (p : Part) (d : DeckNo) : Part :=
  (((p.freed d).modDeck d fun k => { k with timeouts := 8, line := .absent }).raise .deckTimeout).raise .deckAbsent

section
variable {p : Part} {d : DeckNo}

/-- On an ABSENT line the transaction ends and the timeout is counted, up to eight. -/
theorem Part.timeout_absent (line : (p.deck d).line = .absent) :
    p.timeout d = (p.freed d).modDeck d fun k => { k with timeouts := min 8 (k.timeouts + 1) } := by
  have counted := Deck.missed_absent line
  simp only [p.timeout_eq, counted, line, Part.timeoutNotices, if_true]
  exact Part.modDeck_congr counted

/-- Short of the eighth the line state stays, DECK_TIMEOUT is set, and the next slot line polls. -/
theorem Part.timeout_early (line : (p.deck d).line ≠ .absent) (few : (p.deck d).timeouts < 7) :
    p.timeout d = (((p.freed d).modDeck d fun k => { k with timeouts := (p.deck d).timeouts + 1 }).raise .deckTimeout).modPort d
      fun q => { q with prescaler := 1 } := by
  have counted := Deck.missed_early line few
  simp only [p.timeout_eq, counted, line, Part.timeoutNotices, if_false]
  exact congrArg (fun q : Part => (q.raise .deckTimeout).modPort d _) (Part.modDeck_congr counted)

/-- The eighth timeout makes the line ABSENT, which the EDS hears. -/
theorem Part.timeout_eighth (line : (p.deck d).line ≠ .absent) (many : 7 ≤ (p.deck d).timeouts) :
    p.timeout d = (p.absented d).lineChanged d := by
  have counted := Deck.missed_eighth line many
  simp only [p.timeout_eq, counted, line, Part.timeoutNotices, if_false, if_true]
  exact congrArg (fun q : Part => ((q.raise .deckTimeout).raise .deckAbsent).lineChanged d) (Part.modDeck_congr counted)

end

theorem Part.freed_flight (p : Part) (d : DeckNo) : ((p.freed d).port d).flight = none := by
  rw [Part.freed, Part.modPort_port_self]

theorem Part.freed_flight_ne (p : Part) {d e : DeckNo} (h : e ≠ d) : ((p.freed d).port e).flight = (p.port e).flight := by
  rw [Part.freed, Part.modPort_port_ne _ _ h]

theorem Part.lineChanged_flight (p : Part) (d e : DeckNo) : ((p.lineChanged d).port e).flight = (p.port e).flight :=
  ((Part.Steers.refl p).lineChanged d).flight e

/-- The transactions in flight after a timeout: the port's own has ended, every other goes on. -/
theorem Part.timeout_flight (p : Part) (d e : DeckNo) :
    ((p.timeout d).port e).flight = ((p.freed d).port e).flight := by
  by_cases line : (p.deck d).line = .absent
  · rw [Part.timeout_absent line]
    rfl
  · by_cases few : (p.deck d).timeouts < 7
    · rw [Part.timeout_early line few]
      exact Table.get_eq_of_map_eq
        (Table.map_modify Port.flight (p.freed d).ports d (fun q => { q with prescaler := 1 }) fun _ => rfl) e
    · rw [Part.timeout_eighth line (by omega), Part.lineChanged_flight]
      rfl

theorem Bay.unchased_wantRecord (x : Bay) : x.unchased.deck.wantRecord = x.deck.wantRecord := by
  unfold Bay.unchased
  split <;> rfl

/-- The failure of an event asks no deck for record ON. -/
theorem Part.wantRecord_of_failEvent {p : Part} {r : Reason} {d : DeckNo} (h : ((p.failEvent r).deck d).wantRecord = true) :
    (p.deck d).wantRecord = true := by
  have bay : ((p.failEvent r).bay d).deck.wantRecord = true := h
  rw [p.failEvent_bay r d] at bay
  split at bay
  · exact bay
  · rw [p.stood_bay d, Bay.unchased_wantRecord] at bay
    have kept : (if p.recorder = some d then false else (p.deck d).wantRecord) = true := bay
    split at kept
    · exact absurd kept nofun
    · exact kept

/-- Nor does a timeout. -/
theorem Part.wantRecord_of_timeout {p : Part} {d : DeckNo} (h : ((p.timeout d).deck d).wantRecord = true) :
    (p.deck d).wantRecord = true := by
  by_cases line : (p.deck d).line = .absent
  · rw [Part.timeout_absent line, Part.modDeck_deck_self] at h
    exact h
  · by_cases few : (p.deck d).timeouts < 7
    · rw [Part.timeout_early line few, Part.modPort_deck, Part.raise_deck, Part.modDeck_deck_self] at h
      exact h
    · rw [Part.timeout_eighth line (by omega)] at h
      have before : ((p.absented d).deck d).wantRecord = true := by
        rcases (p.absented d).lineChanged_cases d with same | ⟨why, failed⟩
        · exact same ▸ h
        · exact Part.wantRecord_of_failEvent (failed ▸ h)
      rw [Part.absented, Part.raise_deck, Part.raise_deck, Part.modDeck_deck_self] at before
      exact before

end Sys2Proof.Machine
end

section
/-! ## Timeouts counted (O39) -/

namespace Sys2Proof.Machine

open Sys2Proof

/-- A line that has become ABSENT fails the event of its deck before the postroll (R146). -/
theorem Part.lineChanged_absent {p : Part} {d : DeckNo} (line : (p.deck d).line = .absent) :
    p.lineChanged d = if (p.inActiveEvent d && p.eds.phase.beforePostroll) = true then p.failEvent .deckLost else p := by
  simp only [Part.lineChanged, line, lineFault]

theorem Phase.beforePostroll_iff (x : Phase) : x.beforePostroll = true ↔ x ∈ [Phase.cue, .hold, .roll, .record] := by
  cases x <;> decide

section
variable (p : Part) (d : DeckNo)

theorem Part.absented_deck : (p.absented d).deck d = { p.deck d with timeouts := 8, line := .absent } := by
  rw [Part.absented, Part.raise_deck, Part.raise_deck, Part.modDeck_deck_self]
  rfl

theorem Part.absented_noticeSet :
    (p.absented d).noticeSet .deckTimeout = true ∧ (p.absented d).noticeSet .deckAbsent = true := by
  simp [Part.absented, Part.raise_noticeSet_eq]

/-- The event hears of the ABSENT line before anything else in it has changed. -/
theorem Part.absented_inActiveEvent : (p.absented d).inActiveEvent d = p.inActiveEvent d :=
  Part.inActiveEvent_congr (p := p) (q := p.absented d) rfl (by rw [p.absented_deck d])

/-- The signal of the ABSENT line steers the event and nothing else. -/
theorem Part.absented_steers : (p.absented d).Steers ((p.absented d).lineChanged d) := (Part.Steers.refl _).lineChanged d

theorem Part.lineChanged_noticeSet_of {m : Notice} (h : p.noticeSet m = true) : (p.lineChanged d).noticeSet m = true := by
  rcases p.lineChanged_cases d with same | ⟨why, failed⟩
  · rw [same, h]
  · rw [failed, p.failEvent_noticeSet_of why h]

end

/-- A bad reply that the port takes in and a deadline that is reached are both a timeout. -/
theorem exec_timeout {s : State} {d : DeckNo} {c : Instr} {x : Flight} (flight : (s.part.port d).flight = some x)
    (ends : (c = .deckReplyBad d ∧ (s.part.port d).sending = [])
      ∨ (c = .deckTimeout d ∧ x.field ≠ s.part.rtu.fieldCount)) :
    exec c s = .next { s with part := s.part.timeout d } := by
  rcases ends with ⟨rfl, receiving⟩ | ⟨rfl, late⟩
  · show execDeckReplyBad d s = _
    simp only [execDeckReplyBad, Port.receiving, receiving, if_true, flight]
    rfl
  · have reached : s.part.deadlineReached d = true := by simpa [Part.deadlineReached, flight] using late
    show ran s (s.part.judgeDeadline d) = _
    rw [Part.judgeDeadline, if_pos reached]
    rfl

/-- Settles O39: the three cases of a timeout. -/
theorem timeoutCounted : Obligations.TimeoutCounted := by
  intro s d c x flight ends k eds hit
  rw [exec_timeout flight ends]
  refine ⟨fun line few => ?early, fun line seven => ⟨_, rfl, ?eighth⟩, fun line eight => ?absent⟩
  case early =>
    rw [Part.timeout_early line few]
    have ports := (s.part.modPort_modPort d (fun q => { q with flight := none }) fun q => { q with prescaler := 1 })
    exact congrArg (fun q : Part => Host.Outcome.next { s with part := { q with
      decks := s.part.decks.modify d fun y => { y with timeouts := k.timeouts + 1 }
      pku := { s.part.pku with notices := s.part.pku.notices ||| 64#18 } } }) ports
  case eighth =>
    rw [Part.timeout_eighth line seven.ge]
    have steers := s.part.absented_steers d
    have own := s.part.absented_deck d
    have heard : ((s.part.absented d).inActiveEvent d && (s.part.absented d).eds.phase.beforePostroll) = true ↔ hit := by
      rw [s.part.absented_inActiveEvent d, Bool.and_eq_true, Phase.beforePostroll_iff]
      rfl
    obtain ⟨timeout, absent⟩ := s.part.absented_noticeSet d
    refine ⟨?_, ?_, ?_, Part.lineChanged_noticeSet_of _ d timeout, Part.lineChanged_noticeSet_of _ d absent, fun hits => ?_,
      fun misses => ?_⟩
    · rw [steers.line d, own]
    · exact (congrArg Deck.timeouts (steers.deck d) :).trans (congrArg Deck.timeouts own)
    · rw [Part.lineChanged_flight]
      exact s.part.freed_flight d
    · rw [Part.lineChanged_absent (by rw [own]), if_pos (heard.2 hits)]
      exact (s.part.absented d).failEvent_failedAs .deckLost
    · rw [Part.lineChanged_absent (by rw [own]), if_neg (fun h => misses (heard.1 h))]
      rfl
  case absent =>
    intro freed
    rw [Part.timeout_absent line, Part.modDeck_stays]
    · rfl
    · have counted : min 8 (k.timeouts + 1) = k.timeouts := by omega
      exact congrArg (fun n => { k with timeouts := n }) counted

end Sys2Proof.Machine
end

section
/-! ## The slot line (O36, O37)

What the arbiter chooses, in the order of R94, and what sending the chosen item leaves. -/

namespace Sys2Proof.Machine

open Sys2Proof

/-! ### The arbiter's choice (R94) -/

theorem LineState.sendsAll_iff (x : LineState) : x.sendsAll = true ↔ x = .unknown ∨ x = .online := by
  cases x <;> simp [LineState.sendsAll]

/-- The record level differs, and may be sent to this deck (R94). -/
def Deck.RecordDue (k : Deck) : Prop :=
  (k.line = .unknown ∨ k.line = .online) ∧ k.sentRecord ≠ some k.wantRecord
    ∧ (k.wantRecord = true → k.role = .recorder)

/-- The wanted transport differs, and no direct command holds it (R94, R102). -/
def Deck.TransportDue (k : Deck) (hold : Bool) : Prop :=
  (k.line = .unknown ∨ k.line = .online) ∧ hold = false ∧ k.sent ≠ k.want.sent

/-- PLAY is wanted, was sent and is reported, and the wanted speed differs (R94). -/
def Deck.SpeedDue (k : Deck) : Prop :=
  (k.line = .unknown ∨ k.line = .online) ∧ k.want = .play ∧ k.sent = .play
    ∧ (k.transport = .play ∨ k.transport = .variableSpeed) ∧ k.sentSpeed ≠ some k.wantSpeed

/-- A direct command is pending on a line that takes one (R94). -/
def Deck.DirectDue (k : Deck) : Prop := (k.line = .unknown ∨ k.line = .online) ∧ k.direct ≠ none

section
variable (k : Deck) (q : Port)

theorem Deck.recordDue_iff : (k.line.sendsAll && k.recordDiffers) = true ↔ k.RecordDue := by
  rw [Bool.and_eq_true, LineState.sendsAll_iff, Deck.recordDiffers, Deck.RecordDue]
  cases k.wantRecord <;> simp

theorem Deck.transportDue_iff :
    (k.line.sendsAll && !q.directHold && k.sent != k.want.sent) = true ↔ k.TransportDue q.directHold := by
  simp [LineState.sendsAll_iff, Deck.TransportDue, and_assoc]

theorem Deck.speedDue_iff : (k.line.sendsAll && k.speedDiffers) = true ↔ k.SpeedDue := by
  simp [LineState.sendsAll_iff, Deck.speedDiffers, Deck.SpeedDue, and_assoc]

theorem Deck.directDue_iff : (k.line.sendsAll && k.direct.isSome) = true ↔ k.DirectDue := by
  simp [LineState.sendsAll_iff, Deck.DirectDue, Option.isSome_iff_ne_none]

open Classical in
/-- The items of R94 in their order. -/
theorem chosenItem_eq : chosenItem k q =
    if k.RecordDue then some .record
    else if k.TransportDue q.directHold then some .transport
    else if k.SpeedDue then some .speed
    else if k.DirectDue then some .direct
    else if q.prescaler = 0 then some .poll
    else none := by
  simp only [chosenItem, k.recordDue_iff, k.transportDue_iff q, k.speedDue_iff, k.directDue_iff]

end

/-! ### Sending an item (R91 to R95) -/

/-- The part after a frame is sent that leaves the hold and the deck record so. -/
def Part.sent (p : Part) (d : DeckNo) (f : Frame) (hold : Bool) (after : Deck) : Part :=
  (p.modDeck d fun _ => after).modPort d fun x => { x with
    flight := some { frame := f, field := p.rtu.fieldCount, bytes := [] }, sending := x.sending ++ [f]
    directHold := hold, prescaler := if p.pollsEveryField d then 1 else (p.deck d).params.poll }

/-- The deck record after an item is sent with this frame (R93). -/
def Deck.sentItem (k : Deck) (f : Frame) : Item → Deck
  | .direct => { k.sentWith f with direct := none }
  | _ => k.sentWith f

/-- The prescaler after its count-down at a slot line (R95). -/
def Part.prescalerLeft (p : Part) (d : DeckNo) : Nat :=
  (if p.pollsEveryField d then min (p.port d).prescaler 1 else (p.port d).prescaler) - 1

section
variable {p : Part} {d : DeckNo}

theorem Part.countDown_port : (p.countDown d).port d = { p.port d with prescaler := p.prescalerLeft d } :=
  Part.modPort_port_self ..

theorem Part.sendItem_eq (i : Item) :
    p.sendItem d i
      = p.sent d (itemFrame p.counting (p.deck d) (p.port d) i) (holdAfter (p.deck d) (p.port d) i)
          ((p.deck d).sentItem (itemFrame p.counting (p.deck d) (p.port d) i) i) := by
  refine congrArg (Part.modPort · d _) (Part.modDeck_congr ?_)
  cases i <;> rfl

/-- What is sent reloads the prescaler, whatever it was counted down to. -/
theorem Part.countDown_sent (f : Frame) (hold : Bool) (after : Deck) :
    (p.countDown d).sent d f hold after = p.sent d f hold after :=
  (p.modDeck d fun _ => after).modPort_modPort d (fun q => { q with prescaler := p.prescalerLeft d }) _

theorem Part.countDown_sendItem (i : Item) : (p.countDown d).sendItem d i = p.sendItem d i := by
  rw [Part.sendItem_eq, Part.sendItem_eq, Part.countDown_sent, Part.countDown_port]
  cases i <;> rfl

/-- A port with no transaction in flight at its deadline counts down and arbitrates. -/
theorem Part.atSlotLine_live (live : p.deadlineReached d = false) : p.atSlotLine d = (p.countDown d).arbitrate d := by
  rw [Part.atSlotLine, Part.judgeDeadline, if_neg (by simp [live])]

/-- A deck with no role, and a port whose transaction is still in flight, count down alone. -/
theorem Part.atSlotLine_held (live : p.deadlineReached d = false)
    (held : (p.deck d).role = .noRole ∨ (p.port d).flight ≠ none) : p.atSlotLine d = p.countDown d := by
  rw [Part.atSlotLine_live live, Part.arbitrate, if_pos]
  rw [Part.countDown_port]
  exact held.imp id Option.isSome_iff_ne_none.2

variable (flight : (p.port d).flight = none) (role : (p.deck d).role ≠ .noRole)
include flight role

/-- A port that is free sends the item chosen with the prescaler counted down. -/
theorem Part.atSlotLine_free :
    p.atSlotLine d
      = (chosenItem (p.deck d) { p.port d with prescaler := p.prescalerLeft d }).elim (p.countDown d) (p.sendItem d) := by
  have live : p.deadlineReached d = false := by simp [Part.deadlineReached, flight]
  have free : ¬ (((p.countDown d).deck d).role = .noRole ∨ ((p.countDown d).port d).flight.isSome = true) := by
    rw [Part.countDown_port, flight]
    exact not_or.2 ⟨role, nofun⟩
  rw [Part.atSlotLine_live live, Part.arbitrate, if_neg free, Part.countDown_port]
  simp only [Part.countDown_sendItem]
  show (match chosenItem (p.deck d) { p.port d with prescaler := p.prescalerLeft d } with
    | some i => p.sendItem d i
    | none => p.countDown d) = _
  cases chosenItem (p.deck d) { p.port d with prescaler := p.prescalerLeft d } <;> rfl

open Classical in
/-- The items of R94 in their order, at a port that is free. -/
theorem Part.atSlotLine_eq :
    p.atSlotLine d =
      if (p.deck d).RecordDue then p.sendItem d .record
      else if (p.deck d).TransportDue (p.port d).directHold then p.sendItem d .transport
      else if (p.deck d).SpeedDue then p.sendItem d .speed
      else if (p.deck d).DirectDue then p.sendItem d .direct
      else if p.prescalerLeft d = 0 then p.sendItem d .poll
      else p.countDown d := by
  rw [Part.atSlotLine_free flight role, chosenItem_eq]
  (repeat' split) <;> rfl

end

/-- At its deadline the transaction ends as a timeout, and the same slot line finds the port free (R100). -/
theorem Part.atSlotLine_late {p : Part} {d : DeckNo} (late : p.deadlineReached d = true) :
    p.atSlotLine d = (p.timeout d).atSlotLine d := by
  have ended : ((p.timeout d).port d).flight = none := by rw [p.timeout_flight, p.freed_flight]
  have free : (p.timeout d).deadlineReached d = false := by simp [Part.deadlineReached, ended]
  rw [Part.atSlotLine_live free, Part.atSlotLine, Part.judgeDeadline, if_pos late]

/-! ### Each item (R91, R93) -/

section
variable {p : Part} {d : DeckNo}

theorem Part.sendItem_record :
    p.sendItem d .record
      = p.sent d (if (p.deck d).wantRecord then .recordOn (p.port d).tracks else .recordOff) (p.port d).directHold
          { p.deck d with sentRecord := some (p.deck d).wantRecord } := by
  rw [Part.sendItem_eq]
  cases level : (p.deck d).wantRecord <;> simp [itemFrame, holdAfter, Deck.sentItem, Deck.sentWith, level]

theorem Part.sendItem_transport :
    p.sendItem d .transport
      = p.sent d ((p.deck d).want.frame p.counting) (p.port d).directHold
          { p.deck d with sent := (p.deck d).want.sent, sentSpeed := none } := by
  rw [Part.sendItem_eq]
  cases wanted : (p.deck d).want <;>
    simp [itemFrame, holdAfter, Deck.sentItem, Deck.sentWith, Want.frame, Want.sent, wanted]

theorem Part.sendItem_direct {x : Direct} (pending : (p.deck d).direct = some x) :
    p.sendItem d .direct
      = p.sent d (x.frame p.counting) ((p.port d).directHold || x.command.holds)
          { (p.deck d).sentWith (x.frame p.counting) with direct := none } := by
  rw [Part.sendItem_eq]
  simp [itemFrame, holdAfter, Deck.sentItem, pending]

end

/-- The direct commands that go out as a frame of their own with nothing to carry: frame and last-sent transport. -/
def plainCommands : List (DirectCommand × Frame × Sent) :=
  [(.play, .play, .play), (.stop, .stop, .stop), (.still, .still, .still), (.fastFwd, .fastFwd, .fastFwd),
    (.rewind, .rewind, .rewind), (.eject, .eject, .eject)]

/-- Each of them is held when it is sent, and leaves its last-sent transport (R93). -/
theorem Direct.plain {x : Direct} {y : DirectCommand × Frame × Sent} (mem : y ∈ plainCommands)
    (command : x.command = y.1) (c : Counting) (k : Deck) :
    x.frame c = y.2.1 ∧ x.command.holds = true ∧ k.sentWith y.2.1 = { k with sent := y.2.2, sentSpeed := none } := by
  rw [Direct.frame, command]
  simp only [plainCommands, List.mem_cons, List.not_mem_nil, or_false] at mem
  rcases mem with rfl | rfl | rfl | rfl | rfl | rfl <;> exact ⟨rfl, rfl, rfl⟩

/-! ### The frames a slot line leaves in flight (R94) -/

/-- RECORD_ON is chosen only for the recorder while its wanted record level is ON. -/
theorem itemFrame_recordOn {k : Deck} {q : Port} {c : Counting} {i : Item} {tracks : BitVec 4}
    (chosen : chosenItem k q = some i) (frame : itemFrame c k q i = .recordOn tracks) :
    k.role = .recorder ∧ k.wantRecord = true := by
  cases i with
  | record =>
    have due : k.RecordDue := by
      by_contra none
      rw [chosenItem_eq, if_neg none] at chosen
      (repeat' split at chosen) <;> exact absurd chosen nofun
    have wanted : k.wantRecord = true := by
      by_contra off
      rw [itemFrame, if_neg off] at frame
      exact absurd frame nofun
    exact ⟨due.2.2 wanted, wanted⟩
  | transport => cases wanted : k.want <;> simp [itemFrame, Want.frame, wanted] at frame
  | speed => exact absurd frame nofun
  | direct =>
    cases pending : k.direct with
    | none => simp [itemFrame, pending] at frame
    | some x =>
      simp only [itemFrame, pending, Direct.frame] at frame
      (repeat' split at frame) <;> exact absurd frame nofun
  | poll => exact absurd frame nofun

section
variable {p : Part} {d e : DeckNo}

theorem Part.countDown_flight : ((p.countDown d).port e).flight = (p.port e).flight :=
  Table.get_eq_of_map_eq (Table.map_modify Port.flight p.ports d (fun q => { q with prescaler := p.prescalerLeft d })
    fun _ => rfl) e

theorem Part.sent_flight (f : Frame) (hold : Bool) (after : Deck) :
    ((p.sent d f hold after).port d).flight = some { frame := f, field := p.rtu.fieldCount, bytes := [] } := by
  rw [Part.sent, Part.modPort_port_self]

theorem Part.sent_flight_ne (h : e ≠ d) (f : Frame) (hold : Bool) (after : Deck) :
    ((p.sent d f hold after).port e).flight = (p.port e).flight := by
  rw [Part.sent, Part.modPort_port_ne _ _ h]
  rfl

/-- A RECORD_ON that a port with no transaction at its deadline newly has in flight was sent by its recorder. -/
theorem Part.recordOn_of_atSlotLine {x : Flight} {tracks : BitVec 4} (live : p.deadlineReached d = false)
    (flight : ((p.atSlotLine d).port e).flight = some x) (frame : x.frame = .recordOn tracks)
    (new : (p.port e).flight ≠ some x) :
    e = d ∧ (p.deck d).role = .recorder ∧ (p.deck d).wantRecord = true := by
  by_cases held : (p.deck d).role = .noRole ∨ (p.port d).flight ≠ none
  · rw [Part.atSlotLine_held live held, Part.countDown_flight] at flight
    exact absurd flight new
  · obtain ⟨role, idle⟩ := not_or.1 held
    rw [Part.atSlotLine_free (not_not.1 idle) role] at flight
    cases chosen : chosenItem (p.deck d) { p.port d with prescaler := p.prescalerLeft d } with
    | none =>
      rw [chosen, Option.elim_none, Part.countDown_flight] at flight
      exact absurd flight new
    | some i =>
      rw [chosen, Option.elim_some, Part.sendItem_eq] at flight
      by_cases own : e = d
      · subst own
        rw [Part.sent_flight] at flight
        obtain rfl := Option.some.inj flight
        exact ⟨rfl, itemFrame_recordOn chosen (by cases i <;> exact frame)⟩
      · rw [Part.sent_flight_ne own] at flight
        exact absurd flight new

end

/-- Settles O36: the items in their order, and the deadline that comes before them. -/
theorem slotLineSends : Obligations.SlotLineSends := by
  intro s d k q c every left counts sends free wanted frame record transport speed
  have wanted_eq : wanted = k.want.sent := by simp only [wanted]; cases k.want <;> rfl
  have frame_eq : frame = k.want.frame c := by simp only [frame]; cases k.want <;> rfl
  have ends {p : Part} (h : s.part.atSlotLine d = p) : exec (.slotLine d) s = .next { s with part := p } := h ▸ rfl
  have judged (x : Flight) (flight : q.flight = some x) :
      s.part.deadlineReached d = (x.field != s.part.rtu.fieldCount) := by
    simp only [Part.deadlineReached, show (s.part.port d).flight = some x from flight]
  refine ⟨fun role idle => ?unseated, fun x flight now => ?inFlight, fun x flight late => ?deadline,
    fun role idle => ?free⟩
  case unseated => exact ends (Part.atSlotLine_held (by simp [Part.deadlineReached, idle, q]) (.inl role))
  case inFlight =>
    exact ends (Part.atSlotLine_held (by simp [judged x flight, now])
      (.inr (Option.ne_none_iff_exists'.2 ⟨x, flight⟩)))
  case deadline =>
    exact ⟨s.part.timeout d, exec_timeout flight (.inr ⟨rfl, late⟩),
      ends (Part.atSlotLine_late (by simpa [judged x flight] using late))⟩
  case free =>
    have choice := Part.atSlotLine_eq (p := s.part) idle role
    have transport_eq : transport = k.TransportDue q.directHold := by simp only [transport, wanted_eq]; rfl
    rw [transport_eq, wanted_eq, frame_eq]
    refine ⟨fun first => ?record, fun no first => ?transport, fun no no' first => ?speed,
      fun no no' no'' first x pending => ?direct, fun no no' no'' last => ?idle⟩
    case record => exact ends ((choice.trans (if_pos first)).trans Part.sendItem_record)
    case transport => exact ends ((choice.trans ((if_neg no).trans (if_pos first))).trans Part.sendItem_transport)
    case speed =>
      exact ends ((choice.trans ((if_neg no).trans ((if_neg no').trans (if_pos first)))).trans (Part.sendItem_eq .speed))
    case direct =>
      intro gone
      have due : k.DirectDue := ⟨first, Option.ne_none_iff_exists'.2 ⟨x, pending⟩⟩
      have chosen := (choice.trans ((if_neg no).trans ((if_neg no').trans ((if_neg no'').trans (if_pos due))))).trans
        (Part.sendItem_direct pending)
      refine ⟨fun command => ?_, fun command => ?_, fun command l cue => ?_, fun y mem command => ?_⟩
      · rw [Direct.frame, command] at chosen
        exact ends (chosen.trans (by rw [DirectCommand.holds, Bool.or_false]; rfl))
      · rw [Direct.frame, command] at chosen
        exact ends (chosen.trans (by rw [DirectCommand.holds, Bool.or_false]; rfl))
      · rw [Direct.frame, command, cue] at chosen
        exact ends (chosen.trans (by rw [show DirectCommand.cueTo.holds = true from rfl, Bool.or_true]; rfl))
      · obtain ⟨frame, holds, sent⟩ := Direct.plain mem command c k
        rw [frame, holds, Bool.or_true, sent] at chosen
        exact ends chosen
    case idle =>
      have rest := choice.trans ((if_neg no).trans ((if_neg no').trans ((if_neg no'').trans (if_neg last))))
      exact ⟨fun due => ends ((rest.trans (if_pos due)).trans (Part.sendItem_eq .poll)),
        fun waits => ends (rest.trans (if_neg waits))⟩

/-- Settles O37: a transaction at its deadline leaves none in flight behind it, and asks for no record. -/
theorem recordOnOnlyToTheRecorder : Obligations.RecordOnOnlyToTheRecorder := by
  intro s t d e x tracks run flight frame new
  obtain rfl : { s with part := s.part.atSlotLine d } = t := Host.Outcome.next.inj run
  cases late : s.part.deadlineReached d with
  | false => exact Part.recordOn_of_atSlotLine late flight frame new
  | true =>
    have ended : ((s.part.timeout d).port d).flight = none := by rw [s.part.timeout_flight, s.part.freed_flight]
    have newer : ((s.part.timeout d).port e).flight ≠ some x := by
      rw [s.part.timeout_flight]
      by_cases own : e = d
      · rw [own, s.part.freed_flight]
        exact nofun
      · rwa [s.part.freed_flight_ne own]
    have flight : ((s.part.atSlotLine d).port e).flight = some x := flight
    rw [Part.atSlotLine_late late] at flight
    obtain ⟨own, role, record⟩ :=
      Part.recordOn_of_atSlotLine (by simp [Part.deadlineReached, ended]) flight frame newer
    have seats := ((Part.KeepsSeats.refl s.part).timeout d).role d
    exact ⟨own, seats ▸ role, Part.wantRecord_of_timeout record⟩

end Sys2Proof.Machine
end

section
/-! ## Laws: the edge of an input (R173, R174)

What an edge that is due hands on, role by role: a mark, a trigger, an all-stop. -/

namespace Sys2Proof.Machine

open Sys2Proof

/-! ### Acceptance (R173) -/

theorem Gpi.edgeDue_iff (g : Gpi) : g.edgeDue = true ↔ g.lastSample ≠ g.accepted ∧ g.debounce ≤ g.run := by
  simp [Gpi.edgeDue]

/-- The edge accepted rises where the sample is high. -/
theorem Gpi.accept_matchesEdge (g : Gpi) : g.accept.matchesEdge = ((g.edge == .rising) == g.lastSample) := by
  unfold Gpi.matchesEdge Gpi.accept
  cases g.edge <;> cases g.lastSample <;> rfl

/-- The part with the edge of one input accepted. -/
def Part.acceptEdge (p : Part) (n : Fin 4) : Part :=
  p.modGtu fun u => { u with gpis := u.gpis.set n (p.gtu.gpis.get n).accept }

section
variable {x : FieldCtx} {n : Fin 4}

theorem FieldCtx.judgeEdge_of_quiet (quiet : (x.part.gtu.gpis.get n).edgeDue = false) : x.judgeEdge n = x :=
  if_neg (by simp [quiet])

variable (due : (x.part.gtu.gpis.get n).edgeDue = true)
include due

theorem FieldCtx.judgeEdge_of_due :
    x.judgeEdge n =
      if (x.part.gtu.gpis.get n).accept.matchesEdge = true
      then ({ x with part := x.part.acceptEdge n } : FieldCtx).handEdge (x.part.gtu.gpis.get n) n
      else { x with part := x.part.acceptEdge n } :=
  if_pos due

/-- An edge that does not match, or of an input without a role, is accepted and handed on to nothing. -/
theorem FieldCtx.judgeEdge_unheard
    (unheard : (x.part.gtu.gpis.get n).accept.matchesEdge = false ∨ (x.part.gtu.gpis.get n).role = .noRole) :
    x.judgeEdge n = { x with part := x.part.acceptEdge n } := by
  rw [FieldCtx.judgeEdge_of_due due]
  split
  · next hit =>
    have role : (x.part.gtu.gpis.get n).role = .noRole := unheard.resolve_left (by simp [hit])
    simp only [FieldCtx.handEdge, role]
  · rfl

variable (hit : (x.part.gtu.gpis.get n).accept.matchesEdge = true)
include hit

/-- A mark of a deck whose record has advanced is taken at once (R74). -/
theorem FieldCtx.judgeEdge_mark (role : (x.part.gtu.gpis.get n).role = .mark)
    (advanced : (x.part.gtu.gpis.get n).markDeck ∈ x.advanced) :
    x.judgeEdge n = { x with part := (x.part.acceptEdge n).capture (x.part.gtu.gpis.get n).markDeck n } := by
  rw [FieldCtx.judgeEdge_of_due due, if_pos hit]
  simp only [FieldCtx.handEdge, role, advanced, if_true]

/-- A mark of a deck whose record has still to advance waits for it (R74). -/
theorem FieldCtx.judgeEdge_held (role : (x.part.gtu.gpis.get n).role = .mark)
    (waits : (x.part.gtu.gpis.get n).markDeck ∉ x.advanced) :
    x.judgeEdge n
      = { x with part := x.part.acceptEdge n, held := x.held ++ [((x.part.gtu.gpis.get n).markDeck, n)] } := by
  rw [FieldCtx.judgeEdge_of_due due, if_pos hit]
  simp only [FieldCtx.handEdge, role, waits, if_false]

theorem FieldCtx.judgeEdge_trigger (role : (x.part.gtu.gpis.get n).role = .trigger) :
    x.judgeEdge n = { x with part := (x.part.acceptEdge n).takeTrigger } := by
  rw [FieldCtx.judgeEdge_of_due due, if_pos hit]
  simp only [FieldCtx.handEdge, role]

theorem FieldCtx.judgeEdge_allStop (role : (x.part.gtu.gpis.get n).role = .allStop) :
    x.judgeEdge n = { x with part := (x.part.acceptEdge n).allStop } := by
  rw [FieldCtx.judgeEdge_of_due due, if_pos hit]
  simp only [FieldCtx.handEdge, role]

end

/-! ### A mark (R74) -/

section
variable {p : Part} {d : DeckNo} (n : Fin 4)

theorem Part.capture_valid (valid : (p.deck d).position.valid = true) :
    p.capture d n = p.pushMark { position := (p.deck d).position.position, deck := d, origin := .g n } := if_pos valid

theorem Part.capture_invalid (invalid : (p.deck d).position.valid = false) : p.capture d n = p.raise .markRefused :=
  if_neg (by simp [invalid])

end

/-! ### A trigger (R138, R144) -/

section
variable {p : Part}

/-- A trigger that ends no event and finds no event waiting under LOCKED latches a release. -/
theorem Part.takeTrigger_latches (open_ : p.openEndable = false) (waits : p.eds.phase ≠ .hold ∨ p.rtu.lock ≠ .locked) :
    p.takeTrigger = p.modEds fun e => { e with latch := true } := by
  have stays : ¬ (p.eds.phase = .hold ∧ p.rtu.lock = .locked) := not_and_or.2 waits
  rw [Part.takeTrigger, if_neg (by simp [open_]), Part.takeRelease, Part.leaveHold, if_neg]
  exact fun ⟨hold, locked, _⟩ => stays ⟨hold, locked⟩

theorem Part.openEndable_of_phase (h : p.eds.phase ≠ .record) : p.openEndable = false := by
  simp [Part.openEndable, h]

/-- A trigger takes the event that waits in HOLD into ROLL, and its release is consumed. -/
theorem Part.takeTrigger_rolls (hold : p.eds.phase = .hold) (locked : p.rtu.lock = .locked) (event : p.activeEvent ≠ none) :
    p.takeTrigger.Rolls ∧ p.takeTrigger.eds.latch = false := by
  let q := p.modEds fun e => { e with latch := true }
  have rolls : p.takeTrigger = (q.modEds fun e => { e with latch := false, holdWaiting := false }).enterRoll := by
    rw [Part.takeTrigger, if_neg (by simp [Part.openEndable_of_phase, hold]), Part.takeRelease]
    exact q.leaveHold_moves hold locked rfl
  rw [rolls]
  exact Part.enterRoll_rolls _ event

/-- A trigger gives an OPEN event its out-point, and withdraws record for an INSERT. -/
theorem Part.takeTrigger_ends {d : DeckNo} {e : EventRecord} (record : p.eds.phase = .record) (unset : p.eds.outPoint = none)
    (event : p.activeEvent = some e) (length : e.length = none) (recorder : p.recorder = some d) :
    p.takeTrigger =
      let marked := p.modEds fun x => { x with
        outPoint := some (((p.deck d).position.position / 2 + (p.deck d).params.recordLead) % p.counting.dayFrames) }
      if e.kind = .insert then marked.modDeck d fun y => { y with wantRecord := false } else marked := by
  rw [Part.takeTrigger, if_pos (by simp [Part.openEndable, record, unset, event, length]), Part.endOpenEvent]
  simp only [event, recorder]
  rfl

end

/-! ### An all-stop (R103, R148) -/

/-- The deck record after the all-stop at its port. -/
def Deck.allStopped (k : Deck) : Deck :=
  match k.role with
  | .noRole => k
  | .player => { k with direct := none, want := .stop }
  | .recorder => { k with direct := none, want := .stop, wantRecord := false }

theorem Deck.allStopped_noRole {k : Deck} (role : k.role = .noRole) : k.allStopped = k := by
  simp only [Deck.allStopped, role]

theorem Deck.allStopped_seated {k : Deck} (role : k.role ≠ .noRole) :
    k.allStopped.want = .stop ∧ k.allStopped.direct = none ∧ (k.role = .recorder → k.allStopped.wantRecord = false) := by
  unfold Deck.allStopped
  split
  · next none => exact absurd none role
  · next player => exact ⟨rfl, rfl, fun recorder => absurd (player.symm.trans recorder) nofun⟩
  · exact ⟨rfl, rfl, fun _ => rfl⟩

theorem Deck.allStopped_chase (k : Deck) : k.allStopped.chase = k.chase := by
  unfold Deck.allStopped
  split <;> rfl

theorem Part.portAllStop_deck (p : Part) (d : DeckNo) : (p.portAllStop d).deck d = (p.deck d).allStopped := by
  unfold Part.portAllStop Deck.allStopped
  split <;> simp [Part.dropDirect, Part.wantTransport, Part.wantRecordOff, *]

theorem Part.portAllStop_deck_ne (p : Part) {d e : DeckNo} (h : d ≠ e) : (p.portAllStop e).deck d = p.deck d := by
  unfold Part.portAllStop
  split <;> simp [Part.dropDirect, Part.wantTransport, Part.wantRecordOff, Part.modDeck_deck_ne _ _ h]

theorem Part.portAllStop_desk (p : Part) (d : DeckNo) : (p.portAllStop d).desk = p.desk := by
  unfold Part.portAllStop
  split <;> rfl

/-- The deck records after an all-stop. -/
theorem Part.allStop_deck (p : Part) (d : DeckNo) : p.allStop.deck d = ((p.abortEvent .allStop).deck d).allStopped :=
  (Part.each_at (fun d q => q.deck d) Deck.allStopped (fun _ _ q other => q.portAllStop_deck_ne other)
    (fun d q => q.portAllStop_deck d) allDecks_nodup d _).trans (if_pos (mem_allDecks d))

theorem Part.allStop_desk (p : Part) : p.allStop.desk = (p.abortEvent .allStop).desk :=
  Part.each_keeps Part.desk _ (fun d q => q.portAllStop_desk d) _ _

section
variable {p : Part} (r : Reason)

theorem Part.abortEvent_none (idle : p.eds.active = none) : p.abortEvent r = p :=
  if_neg (by simp [Part.eventActive, idle])

theorem Part.abortEvent_some {k : SlotNo} (active : p.eds.active = some k) :
    p.abortEvent r = (p.closeEvent .aborted r).endList :=
  if_pos (by simp [Part.eventActive, active])

/-- The chase of no deck goes on past the end of an event. -/
theorem Part.closeEvent_chase (st : SlotState) (d : DeckNo) : ((p.closeEvent st r).deck d).chase.state = .off := by
  obtain ⟨bay, -, -⟩ := p.stood.closeSlot_beside st r
  have own : ((p.closeEvent st r).bay d).deck = (p.closeEvent st r).deck d := rfl
  rw [← own, p.closeEvent_eq, bay, p.stood_bay d, Bay.unchased]
  split
  · next off => exact off
  · rfl

end

section
variable {p : Part} {k : SlotNo} (active : p.eds.active = some k)
include active

/-- With an event active an all-stop leaves the packet unit and the engine as the end of its list does. -/
theorem Part.allStop_ended : p.allStop.desk = (p.closeEvent .aborted .allStop).endList.desk := by
  rw [p.allStop_desk, Part.abortEvent_some _ active]

/-- The engine after an all-stop: the event aborted as ALL_STOP, and the engine in IDLE (R148). -/
theorem Part.allStop_eds :
    p.allStop.slot k = (p.slot k).closed .aborted .allStop ∧ p.allStop.eds.phase = .idle ∧ p.allStop.eds.active = none := by
  have slot := p.closeEvent_slot .aborted .allStop active k
  have eds := Part.eds_of_desk (Part.allStop_ended active)
  rw [if_pos rfl] at slot
  generalize p.closeEvent .aborted .allStop = q at slot eds
  rw [← slot, Part.slot, eds]
  exact ⟨rfl, rfl, rfl⟩

theorem Part.allStop_pku : p.allStop.pku = { p.pku with notices := p.pku.notices ||| 65536#18 } := by
  have pku := Part.pku_of_desk (Part.allStop_ended active)
  have kept := p.closeEvent_pku .aborted .allStop
  generalize p.closeEvent .aborted .allStop = q at pku kept
  rw [pku, ← kept]
  rfl

theorem Part.allStop_chase (d : DeckNo) : (p.allStop.deck d).chase.state = .off := by
  have off := Part.closeEvent_chase (p := p) .allStop .aborted d
  rw [Part.allStop_deck, Deck.allStopped_chase, Part.abortEvent_some _ active]
  generalize p.closeEvent .aborted .allStop = q at off
  exact off

end

/-- With no event active an all-stop is the ports' alone. -/
theorem Part.allStop_idle {p : Part} (idle : p.eds.active = none) :
    p.allStop.eds = p.eds ∧ ∀ d, (p.deck d).role = .noRole → p.allStop.deck d = p.deck d := by
  refine ⟨?_, fun d role => ?_⟩
  · rw [Part.eds_of_desk p.allStop_desk, Part.abortEvent_none _ idle]
  · rw [p.allStop_deck d, Part.abortEvent_none _ idle, Deck.allStopped_noRole role]

/-- Every port with a role takes the all-stop (R103). -/
theorem Part.allStop_seated {p : Part} {d : DeckNo} (role : (p.deck d).role ≠ .noRole) :
    (p.allStop.deck d).want = .stop ∧ (p.allStop.deck d).direct = none
    ∧ ((p.deck d).role = .recorder → (p.allStop.deck d).wantRecord = false) := by
  have kept := ((Part.KeepsSeats.refl p).abortEvent .allStop).role d
  rw [← kept] at role ⊢
  rw [p.allStop_deck d]
  exact Deck.allStopped_seated role

end Sys2Proof.Machine
end

section
/-! ## Laws: the samples of a field start (R173)

The console's own work in the work of a field start: each input sampled once, whatever stands around it. -/

namespace Sys2Proof.Machine

open Sys2Proof

/-- What every piece of work of a list keeps is kept by all of them. -/
theorem FieldCtx.works_keep {α : Type} (view : FieldCtx → α) (began : Phase) (ws : List FieldWork)
    (keeps : ∀ w ∈ ws, ∀ x : FieldCtx, view (x.work began w) = view x) (x : FieldCtx) :
    view (ws.foldl (FieldCtx.work began) x) = view x := by
  induction ws generalizing x with
  | nil => rfl
  | cons w ws ih =>
    rw [List.forall_mem_cons] at keeps
    exact (ih keeps.2 _).trans (keeps.1 x)

/-- An input with the level at its pin sampled. -/
def FieldCtx.sampled (x : FieldCtx) (n : Fin 4) : FieldCtx :=
  { x with part := x.part.modGtu fun u => { u with gpis := u.gpis.modify n (·.sampled (x.part.gtu.pins.getLsbD n.val)) } }

/-- An input after a field start that finds this level at its pin. -/
def Gpi.stepped (g : Gpi) (level : Bool) : Gpi :=
  if (g.sampled level).edgeDue then (g.sampled level).accept else g.sampled level

/-- An edge that is due is accepted, with the input's sample. -/
theorem Gpi.stepped_of_due {g : Gpi} {level : Bool} (due : (g.sampled level).edgeDue = true) :
    g.stepped level = { g with lastSample := level, accepted := level, run := 0 } := if_pos due

theorem Gpi.stepped_of_quiet {g : Gpi} {level : Bool} (quiet : (g.sampled level).edgeDue = false) :
    g.stepped level = g.sampled level := if_neg (by simp [quiet])

/-- An input counts its run to the debounce of a level that is not the accepted one (R173). -/
theorem Gpi.sampled_edgeDue (g : Gpi) (level : Bool) :
    (g.sampled level).edgeDue = true ↔ level ≠ g.accepted ∧ g.debounce ≤ (g.sampled level).run :=
  (g.sampled level).edgeDue_iff

section
variable (began : Phase) (x : FieldCtx) (n : Fin 4)

theorem FieldCtx.work_gpi : x.work began (.gpi n) = (x.sampled n).judgeEdge n := rfl

theorem FieldCtx.sampled_get :
    (x.sampled n).part.gtu.gpis.get n = (x.part.gtu.gpis.get n).sampled (x.part.gtu.pins.getLsbD n.val) :=
  Table.get_modify_self ..

theorem FieldCtx.work_gpi_get :
    (x.work began (.gpi n)).part.gtu.gpis.get n = (x.part.gtu.gpis.get n).stepped (x.part.gtu.pins.getLsbD n.val) := by
  rw [x.work_gpi, FieldCtx.judgeEdge_gpis, x.sampled_get, Gpi.stepped]
  split
  · exact Table.get_set_self ..
  · exact x.sampled_get n

variable {n}

/-- The other pieces of work leave the input alone. -/
theorem FieldCtx.work_get {w : FieldWork} (other : w ≠ .gpi n) :
    (x.work began w).part.gtu.gpis.get n = x.part.gtu.gpis.get n := by
  cases kind : samplesInput w with
  | false => rw [Part.gtu_of_aside (x.work_aside began w kind)]
  | true =>
    cases w with
    | gpi m =>
      have apart : n ≠ m := fun same => other (same ▸ rfl)
      have sampled : (x.sampled m).part.gtu.gpis.get n = x.part.gtu.gpis.get n := Table.get_modify_ne _ _ apart
      rw [x.work_gpi, FieldCtx.judgeEdge_gpis]
      split
      · rw [Table.get_set_ne _ _ apart, sampled]
      · exact sampled
    | _ => simp [samplesInput] at kind

/-- The levels at the pins and the tally roles are no matter of the work of a field start. -/
theorem FieldCtx.work_pins (w : FieldWork) :
    ((x.work began w).part.gtu.pins, (x.work began w).part.gtu.tallies) = (x.part.gtu.pins, x.part.gtu.tallies) := by
  cases kind : samplesInput w with
  | false => rw [Part.gtu_of_aside (x.work_aside began w kind)]
  | true =>
    cases w with
    | gpi n =>
      rw [x.work_gpi]
      cases due : ((x.sampled n).part.gtu.gpis.get n).edgeDue with
      | false =>
        rw [FieldCtx.judgeEdge_of_quiet due]
        rfl
      | true =>
        rw [FieldCtx.judgeEdge_of_due due]
        split
        · rw [Part.gtu_of_aside (FieldCtx.handEdge_aside _ _ _)]
          rfl
        · rfl
    | _ => simp [samplesInput] at kind

end

section
variable (p : Part) (asked : List FieldWork)

theorem Part.fieldWork_pins :
    (p.fieldWork asked).gtu.pins = p.gtu.pins ∧ (p.fieldWork asked).gtu.tallies = p.gtu.tallies :=
  Prod.mk.inj (FieldCtx.works_keep (fun x => (x.part.gtu.pins, x.part.gtu.tallies)) p.eds.phase (workOrder asked)
    (fun w _ x => x.work_pins p.eds.phase w) _)

/-- Each input is sampled once at a field start. -/
theorem Part.fieldWork_get (n : Fin 4) :
    (p.fieldWork asked).gtu.gpis.get n = (p.gtu.gpis.get n).stepped (p.gtu.pins.getLsbD n.val) := by
  obtain ⟨before, after, split, early, late⟩ := workOrder_split asked (w := .gpi n) (by fin_cases n <;> decide) rfl
  have others (ws : List FieldWork) (out : .gpi n ∉ ws) :=
    FieldCtx.works_keep (fun x => x.part.gtu.gpis.get n) p.eds.phase ws
      fun w mem x => x.work_get p.eds.phase fun same => out (same ▸ mem)
  have pins := FieldCtx.works_keep (fun x => (x.part.gtu.pins, x.part.gtu.tallies)) p.eds.phase before
    (fun w _ x => x.work_pins p.eds.phase w) { part := p, advanced := [], held := [] }
  rw [Part.fieldWork, split, List.foldl_append, List.foldl_cons]
  refine (others after late _).trans ((FieldCtx.work_gpi_get ..).trans ?_)
  rw [others before early _, (Prod.mk.inj pins).1]

end

end Sys2Proof.Machine
end

section
/-! ## Laws: a field start in IDLE around one input with a role (R74, R131)

With no event active, no guard running and no role on another input, only the input's own edge and the capture that it
leaves waiting touch the engine, the marks and the notices. -/

namespace Sys2Proof.Machine

open Sys2Proof

/-- The engine is in IDLE, no guard runs, and no other input has a role. -/
structure Part.Idles (n : Fin 4) (p : Part) : Prop where
  phase : p.eds.phase = .idle
  active : p.eds.active = none
  guard : p.eds.guardRunning = false
  others : ∀ j : Fin 4, j ≠ n → (p.gtu.gpis.get j).role = .noRole

/-- From `p` to `q` the engine and the marks stay, and no notice is cleared. -/
structure Part.Lulls (p q : Part) : Prop where
  eds : q.eds = p.eds
  marks : q.tcu.marks = p.tcu.marks
  notices : ∀ m, p.noticeSet m = true → q.noticeSet m = true

/-- From `p` to `q` the edge of input `n` was captured with this record of deck `d` (R74). -/
structure Part.Captures (k : PosRec) (d : DeckNo) (n : Fin 4) (p q : Part) : Prop where
  taken : k.valid = true →
    q.tcu.marks = ({ position := k.position, deck := d, origin := .g n } :: p.tcu.marks).take 8
    ∧ q.noticeSet .markTaken = true
  refused : k.valid = false → q.tcu.marks = p.tcu.marks ∧ q.noticeSet .markRefused = true

section
variable {p q r : Part} {n : Fin 4} {d : DeckNo} {k : PosRec}

theorem Part.Lulls.refl (p : Part) : p.Lulls p := ⟨rfl, rfl, fun _ => id⟩

theorem Part.Lulls.trans (h : p.Lulls q) (l : q.Lulls r) : p.Lulls r :=
  ⟨l.eds.trans h.eds, l.marks.trans h.marks, fun m set => l.notices m (h.notices m set)⟩

/-- What lets the engine go on, in IDLE, and leaves the timecode unit alone. -/
theorem Part.Lulls.of_progresses (phase : p.eds.phase = .idle) (h : p.Progresses q) (tcu : q.tcu = p.tcu) : p.Lulls q :=
  ⟨h.eds_eq (by simp [phase]) (by simp [phase]), by rw [tcu], h.notices⟩

theorem Part.Lulls.of_studio (h : q.studio = p.studio) : p.Lulls q := by
  have desk := Part.desk_of_studio h
  have tcu : q.tcu = p.tcu := congrArg (fun x : Pku × Eds × Tcu × Table Deck 4 × Chu => x.2.2.1) h
  exact ⟨Part.eds_of_desk desk, by rw [tcu], fun m => (Part.noticeSet_congr (Part.pku_of_desk desk) m).trans⟩

theorem Part.Captures.after_lull (h : p.Lulls q) (c : Part.Captures k d n q r) : Part.Captures k d n p r :=
  ⟨h.marks ▸ c.taken, h.marks ▸ c.refused⟩

theorem Part.Captures.then_lull (c : Part.Captures k d n p q) (h : q.Lulls r) : Part.Captures k d n p r where
  taken valid := (c.taken valid).imp h.marks.trans (h.notices _)
  refused invalid := (c.refused invalid).imp h.marks.trans (h.notices _)

theorem Part.pushMark_taken (p : Part) (m : Mark) : (p.pushMark m).noticeSet .markTaken = true := by
  have taken := (p.modTcu fun t => { t with marks := pushedMarks m t.marks }).raise_noticeSet .markTaken
  unfold Part.pushMark
  extract_lets q
  split
  · exact taken
  · exact (q.raise_progresses .markOverflow).notices _ taken

/-- A capture judged on the record as it stands. -/
theorem Part.capture_captures (p : Part) (d : DeckNo) (n : Fin 4) :
    Part.Captures (p.deck d).position d n p (p.capture d n) where
  taken valid := by
    rw [Part.capture_valid n valid]
    exact ⟨by rw [Part.pushMark_eq], p.pushMark_taken _⟩
  refused invalid := by
    rw [Part.capture_invalid n invalid]
    exact ⟨rfl, p.raise_noticeSet _⟩

theorem Part.capture_eds (p : Part) (d : DeckNo) (n : Fin 4) : (p.capture d n).eds = p.eds := by
  unfold Part.capture Part.pushMark
  (repeat' split) <;> rfl

end

/-! ### What waits for an advance -/

theorem Part.computeHeld_tcu (p : Part) (d : DeckNo) : (p.computeHeld d).tcu = p.tcu := by
  unfold Part.computeHeld
  extract_lets q
  split
  · split
    · exact Part.tcu_of_tapes (q.compute_tapes d)
    · rfl
  · rfl

theorem Part.advanceRecord_tcu (p : Part) (d : DeckNo) : (p.advanceRecord d).tcu = p.tcu := by
  unfold Part.advanceRecord
  extract_lets k
  by_cases stale : ((p.modDeck d fun x => { x with position := x.position.advanced p.counting.day k.transport k.speed }).deck
      d).position.stale = true
  · exact (Part.tcu_of_tapes (Part.judgeStale_tapes stale)).trans rfl
  · rw [Part.judgeStale_of_fresh (Bool.eq_false_iff.2 stale)]
    rfl

section
variable {x : FieldCtx} {n : Fin 4} {d : DeckNo}

/-- Where no capture waits for the deck there is none to release. -/
theorem FieldCtx.releaseHeld_none (free : ∀ h ∈ x.held, h.1 ≠ d) : x.releaseHeld d = x := by
  have none_waits : x.held.filter (fun h => h.1 == d) = [] := List.filter_eq_nil_iff.2 fun h mem => by simpa using free h mem
  have all_stay : x.held.filter (fun h => h.1 != d) = x.held := List.filter_eq_self.2 fun h mem => by simpa using free h mem
  simp only [FieldCtx.releaseHeld, none_waits, all_stay, List.foldl_nil]

theorem FieldCtx.releaseHeld_one (one : x.held = [(d, n)]) :
    x.releaseHeld d = { x with part := x.part.capture d n, held := [] } := by
  simp [FieldCtx.releaseHeld, one]

theorem FieldCtx.react_lulls (phase : x.part.eds.phase = .idle) (active : x.part.eds.active = none) {r : Reaction}
    (free : r = .captures → ∀ h ∈ x.held, h.1 ≠ d) :
    x.part.Lulls (x.react d r).part ∧ (x.react d r).held = x.held := by
  cases r with
  | sequencer =>
    have stays : x.react d .sequencer = x := by rw [FieldCtx.react, Part.signalAdvance_idle active]
    exact stays.symm ▸ ⟨.refl _, rfl⟩
  | captures =>
    have stays : x.react d .captures = x := FieldCtx.releaseHeld_none (free rfl)
    exact stays.symm ▸ ⟨.refl _, rfl⟩
  | chase e =>
    simp only [FieldCtx.react, FieldCtx.computeReady]
    split
    · have desk := x.part.computeHeld_desk e (phase ▸ rfl)
      exact ⟨.of_progresses phase (.of_desk desk) (x.part.computeHeld_tcu e), rfl⟩
    · exact ⟨.refl _, rfl⟩

theorem FieldCtx.reacts_lull (rs : List Reaction) (x : FieldCtx) (phase : x.part.eds.phase = .idle)
    (active : x.part.eds.active = none) (free : .captures ∈ rs → ∀ h ∈ x.held, h.1 ≠ d) :
    x.part.Lulls (rs.foldl (fun y r => y.react d r) x).part ∧ (rs.foldl (fun y r => y.react d r) x).held = x.held := by
  induction rs generalizing x with
  | nil => exact ⟨.refl _, rfl⟩
  | cons r rs ih =>
    obtain ⟨lull, held⟩ := FieldCtx.react_lulls (d := d) (r := r) phase active fun now =>
      free (now ▸ List.mem_cons_self)
    obtain ⟨rest, kept⟩ := ih (x.react d r) (lull.eds ▸ phase) (lull.eds ▸ active) fun later =>
      held.symm ▸ free (List.mem_cons_of_mem r later)
    exact ⟨lull.trans rest, kept.trans held⟩

/-- The step of the record itself. -/
theorem Part.advanceRecord_lulls (p : Part) (d : DeckNo) (phase : p.eds.phase = .idle) : p.Lulls (p.advanceRecord d) :=
  .of_progresses phase (.of_desk (p.advanceRecord_desk d (phase ▸ rfl))) (p.advanceRecord_tcu d)

/-! ### One piece of work -/

theorem Part.Idles.of_eds {p q : Part} (h : p.Idles n) (eds : q.eds = p.eds)
    (roles : q.gtu.gpis.map Gpi.role = p.gtu.gpis.map Gpi.role) : q.Idles n :=
  ⟨eds ▸ h.phase, eds ▸ h.active, eds ▸ h.guard,
    fun j other => (Table.get_eq_of_map_eq roles j).trans (h.others j other)⟩

/-- The advance of a deck that no capture waits for. -/
theorem FieldCtx.advance_lulls (began : Phase) (h : x.part.Idles n) (first : List Reaction)
    (free : ∀ c ∈ x.held, c.1 ≠ d) :
    x.part.Lulls (x.work began (.advance d first)).part ∧ (x.work began (.advance d first)).held = x.held := by
  have steps := Part.advanceRecord_lulls x.part d h.phase
  obtain ⟨reacts, held⟩ := FieldCtx.reacts_lull (d := d) (reactionOrder first)
    { x with part := x.part.advanceRecord d, advanced := d :: x.advanced } (steps.eds ▸ h.phase) (steps.eds ▸ h.active)
    fun _ => free
  exact ⟨steps.trans reacts, held⟩

/-- A piece of work that neither samples the input nor advances a deck that a capture waits for. -/
theorem FieldCtx.work_lulls (h : x.part.Idles n) {w : FieldWork} (other : w ≠ .gpi n)
    (free : ∀ c ∈ x.held, advances w ≠ some c.1) :
    x.part.Lulls (x.work .idle w).part ∧ (x.work .idle w).held = x.held := by
  cases w with
  | advance d first => exact FieldCtx.advance_lulls .idle h first fun c mem same => free c mem (congrArg some same.symm)
  | cueTimers | postroll | autoTake => exact ⟨.of_studio rfl, rfl⟩
  | rollPlays =>
    have off : (x.work .idle .rollPlays).part = x.part := Part.eachRollPlay_off allDecks x.part (by simp [h.phase])
    exact ⟨off ▸ .refl _, rfl⟩
  | guard =>
    have stays : x.work .idle .guard = x := by
      simp only [FieldCtx.work, Part.tickGuard, h.guard, Bool.false_eq_true, if_false]
    exact stays.symm ▸ ⟨.refl _, rfl⟩
  | gpi j =>
    have silent : ((x.sampled j).part.gtu.gpis.get j).role = .noRole := by
      rw [x.sampled_get]
      exact h.others j fun same => other (same ▸ rfl)
    rw [x.work_gpi]
    refine ⟨.of_studio (FieldCtx.judgeEdge_studio (x.sampled j) j silent), ?_⟩
    cases due : ((x.sampled j).part.gtu.gpis.get j).edgeDue with
    | false => rw [FieldCtx.judgeEdge_of_quiet due]; rfl
    | true => rw [FieldCtx.judgeEdge_unheard due (.inr silent)]; rfl

theorem FieldCtx.works_lull (ws : List FieldWork) {x : FieldCtx} (h : x.part.Idles n) (out : .gpi n ∉ ws)
    (free : ∀ c ∈ x.held, c.1 ∉ advancedBy ws) :
    x.part.Lulls (ws.foldl (FieldCtx.work .idle) x).part ∧ (ws.foldl (FieldCtx.work .idle) x).held = x.held := by
  induction ws generalizing x with
  | nil => exact ⟨.refl _, rfl⟩
  | cons w ws ih =>
    rw [advancedBy_cons] at free
    rw [List.mem_cons, not_or] at out
    obtain ⟨lull, held⟩ := FieldCtx.work_lulls h (Ne.symm out.1) fun c mem now =>
      free c mem (List.mem_append_left _ (by simp [now]))
    obtain ⟨rest, kept⟩ := ih (h.of_eds lull.eds (x.work_roles .idle w)) out.2 fun c mem later =>
      free c (held ▸ mem) (List.mem_append_right _ later)
    exact ⟨lull.trans rest, kept.trans held⟩

/-! ### The capture that waits for its deck (R74) -/

/-- The advance of the deck judges the capture on the record as it has advanced. -/
theorem FieldCtx.advance_captures (began : Phase) (h : x.part.Idles n) (first : List Reaction) (one : x.held = [(d, n)]) :
    let y := x.work began (.advance d first)
    Part.Captures (y.part.deck d).position d n x.part y.part ∧ y.part.eds = x.part.eds ∧ y.held = [] := by
  intro y
  let a : FieldCtx := { x with part := x.part.advanceRecord d, advanced := d :: x.advanced }
  obtain ⟨nodup, all⟩ := reactionOrder_spec first
  obtain ⟨before, after, split⟩ := List.append_of_mem (all .captures (by decide))
  have y_eq : y = (reactionOrder first).foldl (fun z r => z.react d r) a := rfl
  rw [split, List.foldl_append, List.foldl_cons] at y_eq
  rw [split] at nodup
  have early : .captures ∉ before := fun mem => List.disjoint_of_nodup_append nodup mem List.mem_cons_self
  have steps := Part.advanceRecord_lulls x.part d h.phase
  obtain ⟨ahead, waits⟩ := FieldCtx.reacts_lull (d := d) before a (steps.eds ▸ h.phase) (steps.eds ▸ h.active)
    fun mem => absurd mem early
  generalize before.foldl (fun z r => z.react d r) a = b at y_eq ahead waits
  have released : b.react d .captures = { b with part := b.part.capture d n, held := [] } :=
    FieldCtx.releaseHeld_one (waits.trans one)
  rw [released] at y_eq
  have eds : (b.part.capture d n).eds = x.part.eds := (b.part.capture_eds d n).trans (steps.trans ahead).eds
  obtain ⟨behind, none⟩ := FieldCtx.reacts_lull (d := d) after { b with part := b.part.capture d n, held := [] }
    (eds ▸ h.phase) (eds ▸ h.active) fun _ _ mem => absurd mem List.not_mem_nil
  have holds := FieldCtx.reacts_holds d after { b with part := b.part.capture d n, held := [] }
  rw [← y_eq] at behind none holds
  have position : (y.part.deck d).position = (b.part.deck d).position :=
    (congrArg Deck.position (((b.part.capture_holds d n).trans holds).deck d) :)
  rw [position]
  exact ⟨((b.part.capture_captures d n).after_lull (steps.trans ahead)).then_lull behind, behind.eds.trans eds, none⟩

/-- A deck that has been advanced stands where its one step has brought it. -/
theorem FieldCtx.Tracks.position {b : Part} (h : x.Tracks b) (done : d ∈ x.advanced) :
    (x.part.deck d).position = ((b.deck d).wound b.counting).position := by
  have deck := h.deck d
  rw [if_pos done] at deck
  exact (congrArg Deck.position deck :)

/-- The capture that waits is judged with the record of its deck as the field start leaves it. -/
theorem FieldCtx.works_capture {b : Part} (ws : List FieldWork) {x : FieldCtx} (h : x.part.Idles n) (tracks : x.Tracks b)
    (one : x.held = [(d, n)]) (out : .gpi n ∉ ws) (nodup : (advancedBy ws).Nodup)
    (fresh : ∀ e ∈ advancedBy ws, e ∉ x.advanced) (later : d ∈ advancedBy ws) :
    Part.Captures ((b.deck d).wound b.counting).position d n x.part (ws.foldl (FieldCtx.work .idle) x).part := by
  induction ws generalizing x with
  | nil => exact absurd later List.not_mem_nil
  | cons w ws ih =>
    rw [advancedBy_cons] at nodup fresh later
    rw [List.mem_cons, not_or] at out
    obtain ⟨-, rest_nodup, apart⟩ := List.nodup_append.1 nodup
    have worked := tracks.work .idle w fun e now => fresh e (by simp [now])
    have advanced := x.work_advanced .idle w
    by_cases now : advances w = some d
    · cases w with
      | advance e first =>
        obtain rfl : e = d := by simpa [advances] using now
        obtain ⟨captures, eds, none⟩ := FieldCtx.advance_captures .idle h first one
        rw [worked.position (by simp [advanced, now])] at captures
        obtain ⟨lull, -⟩ := FieldCtx.works_lull ws (h.of_eds eds (x.work_roles .idle (.advance e first))) out.2
          fun c mem => absurd (none ▸ mem) List.not_mem_nil
        exact captures.then_lull lull
      | _ => simp [advances] at now
    · have rest : d ∈ advancedBy ws := (List.mem_append.1 later).resolve_left (by simpa [eq_comm] using now)
      obtain ⟨lull, held⟩ := FieldCtx.work_lulls h (Ne.symm out.1) (by simpa [one] using now)
      refine (ih (h.of_eds lull.eds (x.work_roles .idle w)) worked (held.trans one) out.2 rest_nodup (fun e mem => ?_)
        rest).after_lull lull
      rw [advanced, List.mem_append, not_or]
      exact ⟨fun first => apart e first e mem rfl, fresh e (List.mem_append_right _ mem)⟩

end

/-! ### The input at its place in the work -/

/-- The work of a field start of `p` just before the sample of the input, with the work that follows the sample. -/
structure FieldCtx.AtInput (p : Part) (n : Fin 4) (after : List FieldWork) (x : FieldCtx) : Prop where
  idles : x.part.Idles n
  lulls : p.Lulls x.part
  held : x.held = []
  input : x.part.gtu.gpis.get n = p.gtu.gpis.get n
  pins : x.part.gtu.pins = p.gtu.pins
  tracks : x.Tracks p
  out : .gpi n ∉ after
  nodup : (advancedBy after).Nodup
  fresh : ∀ d ∈ advancedBy after, d ∉ x.advanced
  every : ∀ d, d ∉ x.advanced → d ∈ advancedBy after

theorem FieldCtx.works_advanced (began : Phase) (ws : List FieldWork) (x : FieldCtx) (d : DeckNo) :
    d ∈ (ws.foldl (FieldCtx.work began) x).advanced ↔ d ∈ x.advanced ∨ d ∈ advancedBy ws := by
  induction ws generalizing x with
  | nil => simp [advancedBy]
  | cons w ws ih =>
    rw [List.foldl_cons, ih, x.work_advanced, advancedBy_cons, List.mem_append, List.mem_append]
    tauto

/-- The work of a field start in IDLE is the sample of the input between work that moves nothing of the engine. -/
theorem Part.fieldWork_atInput {p : Part} {n : Fin 4} (h : p.Idles n) (asked : List FieldWork) :
    ∃ (x : FieldCtx) (after : List FieldWork), x.AtInput p n after
      ∧ p.fieldWork asked = (after.foldl (FieldCtx.work .idle) (x.work .idle (.gpi n))).part := by
  obtain ⟨before, after, split, early, late⟩ := workOrder_split asked (w := .gpi n) (by fin_cases n <;> decide) rfl
  have all := advancedBy_nodup (workOrder_spec asked).1
  have every := mem_advancedBy_workOrder asked
  have parts : advancedBy (workOrder asked) = advancedBy before ++ advancedBy after := by
    rw [split, advancedBy, List.filterMap_append]
    rfl
  rw [parts] at all every
  obtain ⟨first, last, apart⟩ := List.nodup_append.1 all
  let start : FieldCtx := { part := p, advanced := [], held := [] }
  obtain ⟨tracks, -⟩ := (FieldCtx.Tracks.start p).works .idle before first fun _ _ => List.not_mem_nil
  obtain ⟨lulls, held⟩ := FieldCtx.works_lull before (x := start) h early fun _ mem => absurd mem List.not_mem_nil
  have pins := FieldCtx.works_keep (fun x => (x.part.gtu.pins, x.part.gtu.tallies)) .idle before
    (fun w _ x => x.work_pins .idle w) start
  have roles := FieldCtx.works_keep (fun x => x.part.gtu.gpis.map Gpi.role) .idle before
    (fun w _ x => x.work_roles .idle w) start
  have input := FieldCtx.works_keep (fun x => x.part.gtu.gpis.get n) .idle before
    (fun w mem x => x.work_get .idle fun same => early (same ▸ mem)) start
  have advanced := FieldCtx.works_advanced .idle before start
  refine ⟨before.foldl (FieldCtx.work .idle) start, after, ⟨h.of_eds lulls.eds roles, lulls, held, input,
    (Prod.mk.inj pins).1, tracks, late, last, fun d mem now => ?_, fun d waits => ?_⟩, ?_⟩
  · exact ((advanced d).1 now).elim (fun mem' => absurd mem' List.not_mem_nil) fun earlier => apart d earlier d mem rfl
  · exact (List.mem_append.1 (every d)).resolve_left fun earlier => waits ((advanced d).2 (.inr earlier))
  · rw [Part.fieldWork, h.phase, split, List.foldl_append, List.foldl_cons]

section
variable {p : Part} {n : Fin 4} (h : p.Idles n) (asked : List FieldWork)
  (due : ((p.gtu.gpis.get n).sampled (p.gtu.pins.getLsbD n.val)).edgeDue = true)
  (hit : ((p.gtu.gpis.get n).sampled (p.gtu.pins.getLsbD n.val)).accept.matchesEdge = true)
include h due hit

/-- A trigger at a field start in IDLE latches a release (R138). -/
theorem Part.fieldWork_trigger (role : (p.gtu.gpis.get n).role = .trigger) :
    (p.fieldWork asked).eds = { p.eds with latch := true } := by
  obtain ⟨x, after, spot, work_eq⟩ := Part.fieldWork_atInput h asked
  have sampled := x.sampled_get n
  rw [spot.input, spot.pins] at sampled
  have handed := FieldCtx.judgeEdge_trigger (x := x.sampled n) (n := n) (by rw [sampled, due]) (by rw [sampled, hit])
    (by rw [sampled]; exact role)
  have phase : ((x.sampled n).part.acceptEdge n).eds.phase = .idle := spot.idles.phase
  rw [Part.takeTrigger_latches (Part.openEndable_of_phase (by simp [phase])) (.inl (by simp [phase]))] at handed
  have stepped := (x.work_gpi .idle n).trans handed
  have eds : (x.work .idle (.gpi n)).part.eds = { p.eds with latch := true } := by
    rw [stepped, ← spot.lulls.eds]
    rfl
  have idles : (x.work .idle (.gpi n)).part.Idles n :=
    ⟨by rw [eds]; exact h.phase, by rw [eds]; exact h.active, by rw [eds]; exact h.guard, fun j other =>
      (Table.get_eq_of_map_eq (x.work_roles .idle (.gpi n)) j).trans (spot.idles.others j other)⟩
  have none_held : (x.work .idle (.gpi n)).held = [] := stepped ▸ spot.held
  obtain ⟨lulls, -⟩ := FieldCtx.works_lull after idles spot.out fun c mem => absurd (none_held ▸ mem) List.not_mem_nil
  rw [work_eq, lulls.eds, eds]

/-- A mark at a field start in IDLE is of the record as the field start leaves it (R74). -/
theorem Part.fieldWork_mark (role : (p.gtu.gpis.get n).role = .mark) :
    Part.Captures ((p.fieldWork asked).deck (p.gtu.gpis.get n).markDeck).position (p.gtu.gpis.get n).markDeck n p
      (p.fieldWork asked) := by
  obtain ⟨x, after, spot, work_eq⟩ := Part.fieldWork_atInput h asked
  have sampled := x.sampled_get n
  rw [spot.input, spot.pins] at sampled
  have deck : ((x.sampled n).part.gtu.gpis.get n).markDeck = (p.gtu.gpis.get n).markDeck := by rw [sampled]; rfl
  have due' : ((x.sampled n).part.gtu.gpis.get n).edgeDue = true := by rw [sampled, due]
  have hit' : ((x.sampled n).part.gtu.gpis.get n).accept.matchesEdge = true := by rw [sampled, hit]
  have role' : ((x.sampled n).part.gtu.gpis.get n).role = .mark := by rw [sampled]; exact role
  have roles := x.work_roles .idle (.gpi n)
  have accepts : p.Lulls ((x.sampled n).part.acceptEdge n) := spot.lulls.trans (.of_studio rfl)
  rw [p.fieldWork_position asked, work_eq]
  by_cases advanced : (p.gtu.gpis.get n).markDeck ∈ x.advanced
  · have stepped := (x.work_gpi .idle n).trans (FieldCtx.judgeEdge_mark due' hit' role' (deck ▸ advanced))
    rw [deck] at stepped
    generalize x.work .idle (.gpi n) = y at stepped roles ⊢
    subst stepped
    have captures := ((x.sampled n).part.acceptEdge n).capture_captures (p.gtu.gpis.get n).markDeck n
    have position : (((x.sampled n).part.acceptEdge n).deck (p.gtu.gpis.get n).markDeck).position = _ :=
      spot.tracks.position advanced
    rw [position] at captures
    have eds := ((x.sampled n).part.acceptEdge n).capture_eds (p.gtu.gpis.get n).markDeck n
    obtain ⟨lulls, -⟩ := FieldCtx.works_lull after (spot.idles.of_eds eds roles) spot.out
      fun c mem => absurd (spot.held ▸ mem) List.not_mem_nil
    exact (captures.after_lull accepts).then_lull lulls
  · have stepped := (x.work_gpi .idle n).trans (FieldCtx.judgeEdge_held due' hit' role' (deck ▸ advanced))
    rw [deck] at stepped
    have tracks := spot.tracks.work .idle (.gpi n) nofun
    generalize x.work .idle (.gpi n) = y at stepped roles tracks ⊢
    subst stepped
    have one : (x.sampled n).held ++ [((p.gtu.gpis.get n).markDeck, n)] = [((p.gtu.gpis.get n).markDeck, n)] :=
      congrArg (· ++ _) spot.held
    have idles : ((x.sampled n).part.acceptEdge n).Idles n := spot.idles.of_eds rfl roles
    have captures := FieldCtx.works_capture after idles tracks one spot.out spot.nodup spot.fresh (spot.every _ advanced)
    exact captures.after_lull accepts

end

end Sys2Proof.Machine
end

section
/-! ## An accepted edge (O59) -/

namespace Sys2Proof.Machine

open Sys2Proof

theorem exec_gpiAcceptedEdge (s : State) (n : Fin 4) :
    exec (.gpiAcceptedEdge n) s
      = .next { s with part := (FieldCtx.judgeEdge { part := s.part, advanced := allDecks, held := [] } n).part } := rfl

/-- With a run count below D, and without an edge, nothing is accepted (log entry 5). -/
theorem exec_gpiAcceptedEdge_quiet (s : State) (n : Fin 4)
    (waits : (s.part.gtu.gpis.get n).lastSample = (s.part.gtu.gpis.get n).accepted
      ∨ (s.part.gtu.gpis.get n).run < (s.part.gtu.gpis.get n).debounce) : exec (.gpiAcceptedEdge n) s = .next s := by
  have quiet : (s.part.gtu.gpis.get n).edgeDue = false := by
    rw [← Bool.not_eq_true, Gpi.edgeDue_iff]
    rintro ⟨differs, counted⟩
    exact waits.elim differs (Nat.not_lt.2 counted)
  rw [exec_gpiAcceptedEdge, FieldCtx.judgeEdge_of_quiet quiet]

/-- Settles O59: the samples of a field start with the one input that acts, and the edge by its role. -/
theorem edgeAccepted : Obligations.EdgeAccepted := by
  refine ⟨?_, ?_⟩
  · intro s pins order ready level g run due acts
    let p := s.part.opened pins
    obtain ⟨eds, tcu, -, -, -⟩ := s.part.opened_kept pins
    have gtu : p.gtu = { s.part.gtu with pins := pins } := congrArg (fun x => x.2.2) (s.part.opened_aside pins)
    have input (n : Fin 4) : p.gtu.gpis.get n = g n := by rw [gtu]
    have pin (n : Fin 4) : p.gtu.pins.getLsbD n.val = level n := by rw [gtu]
    have edge (n : Fin 4) : ((g n).sampled (level n)).edgeDue = true ↔ due n := (g n).sampled_edgeDue (level n)
    have stepped (n : Fin 4) : (p.fieldWork order).gtu.gpis.get n = (g n).stepped (level n) := by
      rw [p.fieldWork_get, input, pin]
    obtain ⟨kept_pins, kept_tallies⟩ := p.fieldWork_pins order
    have heard (n : Fin 4) (h : acts n) : p.Idles n
        ∧ ((p.gtu.gpis.get n).sampled (p.gtu.pins.getLsbD n.val)).edgeDue = true
        ∧ ((p.gtu.gpis.get n).sampled (p.gtu.pins.getLsbD n.val)).accept.matchesEdge = true := by
      obtain ⟨now, rises, phase, active, guard, others⟩ := h
      refine ⟨⟨by rw [eds, phase], by rw [eds, active], by rw [eds, guard],
        fun j other => by rw [input, others j other]⟩, ?_, ?_⟩
      · rw [input, pin, edge]
        exact now
      · rw [input, pin, Gpi.accept_matchesEdge, beq_iff_eq, Bool.eq_iff_iff, beq_iff_eq]
        exact rises
    refine ⟨p.fieldWork order, congrArg (ran s) (s.part.fieldStart_eq pins order ready), by rw [kept_pins, gtu],
      by rw [kept_tallies, gtu], fun n => ⟨fun now => ?_, fun waits => ?_, fun h role => ?_, fun h role => ?_⟩⟩
    · rw [stepped, Gpi.stepped_of_due ((edge n).2 now)]
    · rw [stepped, Gpi.stepped_of_quiet (Bool.eq_false_iff.2 fun now => waits ((edge n).1 now))]
      rfl
    · obtain ⟨idles, now, hit⟩ := heard n h
      rw [Part.fieldWork_trigger idles order now hit (by rw [input, role]), eds]
    · obtain ⟨idles, now, hit⟩ := heard n h
      obtain ⟨taken, refused⟩ := Part.fieldWork_mark idles order now hit (by rw [input, role])
      rw [input, tcu] at taken refused
      exact ⟨taken, refused⟩
  · intro s n g differs counted accepted hit noticed position
    have due : g.edgeDue = true := g.edgeDue_iff.2 ⟨differs, counted⟩
    have matches_ : g.accept.matchesEdge = hit := g.accept_matchesEdge
    have ends {x : FieldCtx} (h : FieldCtx.judgeEdge { part := s.part, advanced := allDecks, held := [] } n = x) :
        exec (.gpiAcceptedEdge n) s = .next { s with part := x.part } := h ▸ exec_gpiAcceptedEdge s n
    refine ⟨fun unheard => ?unheard, fun heard role invalid => ?refused, fun heard role valid => ?taken,
      fun heard role open_ waits => ?latches, fun heard role hold locked event => ?rolls,
      fun d e heard role record unset event length recorder => ?openEnd, fun heard role => ?allStop,
      exec_gpiAcceptedEdge_quiet⟩
    case unheard => exact ends (FieldCtx.judgeEdge_unheard due (unheard.imp_left matches_.trans))
    case refused =>
      have captured := ends (FieldCtx.judgeEdge_mark due (matches_.trans heard) role (mem_allDecks _))
      rwa [Part.capture_invalid n (p := s.part.acceptEdge n) invalid] at captured
    case taken =>
      have captured := ends (FieldCtx.judgeEdge_mark due (matches_.trans heard) role (mem_allDecks _))
      rw [Part.capture_valid n (p := s.part.acceptEdge n) valid, Part.pushMark_eq] at captured
      refine captured.trans ?_
      simp only [noticed, apply_ite (s.part.pku.notices ||| ·)]
      rfl
    case latches =>
      have latched := ends (FieldCtx.judgeEdge_trigger due (matches_.trans heard) role)
      rwa [Part.takeTrigger_latches (p := s.part.acceptEdge n) open_ waits] at latched
    case rolls =>
      obtain ⟨⟨phase, waiting, owner, level⟩, latch⟩ :=
        Part.takeTrigger_rolls (p := s.part.acceptEdge n) hold locked event
      exact ⟨_, ends (FieldCtx.judgeEdge_trigger due (matches_.trans heard) role),
        Part.gtu_of_aside (Part.takeTrigger_aside _), phase, latch, waiting, owner, level⟩
    case openEnd =>
      have ended := ends (FieldCtx.judgeEdge_trigger due (matches_.trans heard) role)
      rwa [Part.takeTrigger_ends (p := s.part.acceptEdge n) record unset event length recorder] at ended
    case allStop =>
      let q := s.part.acceptEdge n
      refine ⟨q.allStop, ends (FieldCtx.judgeEdge_allStop due (matches_.trans heard) role), Part.gtu_of_aside q.allStop_aside,
        fun idle => ?_, fun k active => ?_, fun d seated => Part.allStop_seated (p := q) seated, fun idle => ?_⟩
      · exact (Part.allStop_idle (p := q) idle).1
      · obtain ⟨slot, phase, ended⟩ := Part.allStop_eds (p := q) active
        exact ⟨slot, phase, ended, Part.allStop_chase (p := q) active, Part.allStop_pku (p := q) active⟩
      · exact (Part.allStop_idle (p := q) idle).2

end Sys2Proof.Machine
end

section
/-! ## The promise of record ON is not kept by every step (O50)

`Part.engineSound` ties neither the engine's out-point nor that of the arm results to the length of the ACTIVE event. So
an OPEN event may stand in ROLL with an out-point, and its record-on decision asks for record ON against R144. -/

namespace Sys2Proof.Machine

open Sys2Proof

/-- An OPEN INSERT from deck 1 at the first field of the day. -/
def openInsert : EventRecord :=
  let midnight : StoredLabel :=
    { label := { hh := 0, mm := 0, ss := 0, ff := 0, field := .one }, drop := false, normalised := false }
  { kind := .insert, recordIn := some midnight, length := none, transition := .cut, start := 0, duration := 1
    pattern := 0, curve := 0, reverse := false, softness := 0, preroll := 0, postroll := 0, hold := .noHold, tracks := 1
    key := none, source1 := { deck := 1, play := midnight }, source2 := none }

/-- Arm results with an out-point, which no arm gives an OPEN event (R127). -/
def closedArm : ArmResults :=
  { recorder := 0, recordIn := 0, mark := none, outPoint := some 100, recorderCue := 0
    source1 := { deck := 1, inPoint := 0, cue := 0 }, source2 := none, fill := none, duration := 1
    durationClamped := false }

/-- The event of slot 5 in ROLL under LOCKED, its recorder past the decision point, its player locked, and in the engine
the out-point of the arm results. -/
def openInRoll : Part :=
  let p := Part.reset .powerOn
  let at0 (r : PosRec) : PosRec := { r with valid := true, age := 0 }
  let seated := (p.modDeck 0 fun k => { k with role := .recorder, line := .online, position := at0 k.position }).modDeck 1
    fun k => { k with
      role := .player, input := some .a, line := .online, position := at0 k.position
      chase := { k.chase with state := .locked } }
  let active := seated.modSlot 5 fun _ =>
    { state := .active, event := some openInsert, arm := some closedArm, run := .fresh }
  ((active.modEds fun e => { e with phase := .roll, active := some 5, cursor := 5, outPoint := closedArm.outPoint }).modMep
    fun m => { m with owner := .eds }).modRtu fun r => { r with lock := .locked }

theorem openInRoll_sound :
    openInRoll.engineSound = true ∧ openInRoll.tableSound = true ∧ openInRoll.recordSound = true := by
  decide +kernel

/-- At the next field start record ON is wanted of the recorder of the OPEN event, whose out-point stands. -/
theorem fieldStart_openInRoll :
    ((openInRoll.fieldStart 0 []).deck 0).wantRecord = true ∧ (openInRoll.fieldStart 0 []).recordSound = false := by
  decide +kernel

/-- Refutes O50: a field start takes `openInRoll` to record ON with its out-point set, though the engine and the deck table
are sound and nothing is recorded before. -/
theorem not_engineStaysSound : ¬ Obligations.EngineStaysSound := by
  intro h
  have keeps (p : Part) (engine : p.engineSound = true) (table : p.tableSound = true) (record : p.recordSound = true) :
      (p.fieldStart 0 []).recordSound = true :=
    (h { part := p, pending := [.fieldStart 0 []] } { part := p.fieldStart 0 [], pending := [] } engine rfl).2 table record
  obtain ⟨engine, table, record⟩ := openInRoll_sound
  have kept := keeps openInRoll engine table record
  rw [fieldStart_openInRoll.2] at kept
  exact Bool.false_ne_true kept

end Sys2Proof.Machine
end

section
/-! ## ABORT (O47)

The abort writes into the bays what the reset of the engine writes; it differs in the reason, in LIST_END and in the slots
that it leaves ARMED. -/

namespace Sys2Proof.Machine

open Sys2Proof

section
variable {p : Part} (r : Reason) {n : SlotNo} (active : p.eds.active = some n)
include active

/-- The active slot ABORTED, and every other slot as it was. -/
theorem Part.abortEvent_slot (m : SlotNo) :
    (p.abortEvent r).slot m = if m = n then (p.slot m).closed .aborted r else p.slot m := by
  have ended (q : Part) : q.endList.slot m = q.slot m := rfl
  rw [Part.abortEvent_some r active, ended, p.closeEvent_slot _ _ active]

theorem Part.abortEvent_eds : (p.abortEvent r).eds = { p.eds with slots := (p.abortEvent r).eds.slots }.idled false := by
  rw [Part.abortEvent_some r active, Part.endList_eds, Part.closeEvent_eds, p.closeSlot_some _ _ active]
  rfl

theorem Part.abortEvent_pku : (p.abortEvent r).pku = { p.pku with notices := p.pku.notices ||| 65536#18 } := by
  rw [Part.abortEvent_some r active, Part.endList_pku, Part.raise_pku, Part.closeEvent_pku]
  rfl

/-- The bays as the reset of the engine leaves them (R147, R151). -/
theorem Part.abortEvent_bay (d : DeckNo) : (p.abortEvent r).bay d = p.resetEngine.bay d := by
  have ended (q : Part) : q.endList.bay = q.bay := rfl
  rw [Part.abortEvent_some r active, ended, p.closeEvent_eq, (p.stood.closeSlot_beside _ _).1, p.stood_bay d,
    p.resetEngine_bay d, if_neg (by simp [active])]

/-- The chase unit but for what it keeps of each deck, the mixer and the timecode unit. -/
theorem Part.abortEvent_beside :
    (p.abortEvent r).chu = { p.chu with syncWatch := false, own := (p.abortEvent r).chu.own }
    ∧ (p.abortEvent r).mep = p.mep.release ∧ (p.abortEvent r).tcu = p.tcu := by
  have ended (q : Part) : q.endList.chu = q.chu ∧ q.endList.mep = q.mep := ⟨rfl, rfl⟩
  obtain ⟨-, chu, mep⟩ := p.stood.closeSlot_beside .aborted r
  obtain ⟨stood_chu, stood_mep⟩ := p.stood_beside
  have tcu : (p.closeEvent .aborted r).endList.tcu = p.tcu :=
    Part.tcu_of_tapes ((Part.endList_tapes _).trans (p.closeEvent_tapes _ _))
  rw [Part.abortEvent_some r active, (ended _).1, (ended _).2, p.closeEvent_eq, chu, mep]
  exact ⟨stood_chu, stood_mep, tcu⟩

end

/-- Settles O47: the engine, each slot, each bay, and the frame, each from its own lemma. -/
theorem eventAborted : Obligations.EventAborted := by
  intro s off chases
  refine ⟨fun n active running => ?_, fun idle => if_pos idle⟩
  have aside := s.part.abortEvent_aside .hostAbort
  obtain ⟨chu, mep, tcu⟩ := Part.abortEvent_beside .hostAbort active
  refine ⟨s.part.abortEvent .hostAbort, if_neg running, ?_, fun m other => ?_, ?_, Part.abortEvent_pku _ active, fun d => ?_,
    chu, ?_, tcu, Part.rtu_of_aside aside, Part.sius_of_aside aside, Part.gtu_of_aside aside⟩
  · rw [Part.abortEvent_slot _ active, if_pos rfl]
    rfl
  · rw [Part.abortEvent_slot _ active, if_neg other]
  · rw [Part.abortEvent_eds _ active]
    simp [Eds.idled]
  · have bay := (Part.abortEvent_bay .hostAbort active d).trans (s.part.resetEngine_bay_fields d)
    simp only [active, ne_eq, Option.some_ne_none, not_false_eq_true, true_and] at bay
    obtain ⟨deck, port, own⟩ := Bay.mk.inj bay
    exact ⟨deck, port, own⟩
  · rw [mep]
    by_cases eds : s.part.mep.owner = .eds
    · rw [if_pos eds, s.part.mep.release_spec.1 eds]
    · rw [if_neg eds, s.part.mep.release_spec.2 eds]

end Sys2Proof.Machine
end

section
/-! ## The players of an event and the start of its chase (O49) -/

namespace Sys2Proof.Machine

open Sys2Proof

/-- The armed players of an event, the background entries first. -/
def ArmResults.players (a : ArmResults) : List ArmedDeck := a.source1 :: (a.source2.toList ++ a.fill.toList)

/-- The entry that speaks for a deck: the first that names it. -/
def ArmResults.player (a : ArmResults) (d : DeckNo) : Option ArmedDeck := a.players.find? (fun y => y.deck == d)

/-- A reading of the entry that speaks for a deck, entry by entry. -/
theorem ArmResults.player_map {α : Type} (a : ArmResults) (d : DeckNo) (read : ArmedDeck → α) :
    (a.player d).map read =
      if a.source1.deck = d then some (read a.source1)
      else
        (a.source2.bind fun y => if y.deck = d then some (read y) else none).or
          (a.fill.bind fun y => if y.deck = d then some (read y) else none) := by
  have entry (y : Option ArmedDeck) : (y.toList.find? (fun y => y.deck == d)).map read
      = y.bind fun y => if y.deck = d then some (read y) else none := by
    cases y with
    | none => rfl
    | some y => by_cases named : y.deck = d <;> simp [named]
  by_cases first : a.source1.deck = d
  · simp [ArmResults.player, ArmResults.players, first]
  · rw [if_neg first, ← entry, ← entry, ← Option.map_or, ← List.find?_append]
    simp [ArmResults.player, ArmResults.players, first]

/-- The in-point is that of the entry that speaks for the deck (R106). -/
theorem ArmResults.inPointOf_eq (a : ArmResults) (d : DeckNo) : a.inPointOf d = (a.player d).map ArmedDeck.inPoint := by
  rw [a.player_map, ArmResults.inPointOf]
  split
  · rfl
  · split
    next two =>
      rw [two, Option.bind_some]
      split <;> rfl
    next two fill => simp [two, fill]
    next two fill => simp [two, fill]

/-- The cue point of a player is that of the entry that speaks for it. -/
theorem Part.cuePoint_player (p : Part) (a : ArmResults) {d : DeckNo} (role : (p.deck d).role ≠ .recorder) :
    p.cuePoint a d = (a.player d).map ArmedDeck.cue := by
  rw [a.player_map, Part.cuePoint, if_neg role]
  split
  · rfl
  · split
    next two =>
      rw [two, Option.bind_some]
      split <;> rfl
    next two fill => simp [two, fill]
    next two fill => simp [two, fill]

theorem Part.cuePoint_recorder (p : Part) (a : ArmResults) {d : DeckNo} (role : (p.deck d).role = .recorder) :
    p.cuePoint a d = some a.recorderCue := if_pos role

/-- The entry that speaks for a deck names it. -/
theorem ArmResults.player_source1 (a : ArmResults) : a.player a.source1.deck = some a.source1 := by
  simp [ArmResults.player, ArmResults.players]

theorem ArmResults.player_source2 {a : ArmResults} {y : ArmedDeck} (two : a.source2 = some y)
    (other : y.deck ≠ a.source1.deck) : a.player y.deck = some y := by
  simp [ArmResults.player, ArmResults.players, two, other.symm]

theorem ArmResults.player_fill {a : ArmResults} {y : ArmedDeck} (fill : a.fill = some y) (one : y.deck ≠ a.source1.deck)
    (two : ∀ z, a.source2 = some z → y.deck ≠ z.deck) : a.player y.deck = some y := by
  cases second : a.source2 with
  | none => simp [ArmResults.player, ArmResults.players, fill, second, one.symm]
  | some z => simp [ArmResults.player, ArmResults.players, fill, second, one.symm, (two z second).symm]

/-! ### PLAY falls due (R106, R140) -/

theorem Part.playDue_iff (p : Part) (d : DeckNo) :
    p.playDue d = true ↔ p.eds.phase = .roll ∧ p.inActiveEvent d = true
      ∧ (p.eds.rollField + 2 ^ 24 - (p.deck d).params.playLead) % 2 ^ 24 = p.rtu.fieldCount := by
  simp [Part.playDue, Config.countModulus, and_assoc]

section
variable {p : Part} {d : DeckNo} (due : p.playDue d = true)
include due

theorem Part.rollPlay_recorder (role : (p.deck d).role = .recorder) : p.rollPlay d = p.wantTransport d .play := by
  simp [Part.rollPlay, due, role]

theorem Part.rollPlay_player (role : (p.deck d).role ≠ .recorder) {a : ArmResults} (arm : p.activeArm = some a) {frame : Nat}
    (inPoint : a.inPointOf d = some frame) :
    p.rollPlay d = (p.wantTransport d .play).chaseStart d frame a.recordIn := by
  simp only [Part.rollPlay, due, role, arm, inPoint, if_true, if_false]

end

/-- A chase start writes the deck's chase items and its in-points, and nothing of another deck (R106). -/
theorem Part.chaseStart_spec (p : Part) (d : DeckNo) (playerIn recorderIn : Nat) :
    (p.chaseStart d playerIn recorderIn).deck d
        = { p.deck d with wantSpeed := 256, chase := { state := .pullIn, error := 0, lockCount := 0, speed := 256 } }
    ∧ (p.chaseStart d playerIn recorderIn).chu.own.get d
        = { playerIn := 2 * playerIn, recorderIn := 2 * recorderIn, pending := false }
    ∧ (p.chaseStart d playerIn recorderIn).eds = p.eds ∧ (p.chaseStart d playerIn recorderIn).pku = p.pku := by
  refine ⟨?_, Table.get_modify_self _ _ _, rfl, rfl⟩
  have own (q : Part) (f : ChaseOwn → ChaseOwn) : (q.modChase d f).deck d = q.deck d := rfl
  rw [Part.chaseStart, Part.wantSpeed, Part.modDeck_deck_self, own, Part.modDeck_deck_self]

/-- PLAY and the start of the chase, for a player whose PLAY falls due (R106, R140). -/
theorem Part.rollPlay_chases {p : Part} {d : DeckNo} (due : p.playDue d = true) (role : (p.deck d).role ≠ .recorder)
    {a : ArmResults} (arm : p.activeArm = some a) {frame : Nat} (inPoint : (a.player d).map ArmedDeck.inPoint = some frame) :
    (p.rollPlay d).deck d = { p.deck d with
      want := .play, wantSpeed := 256, chase := { state := .pullIn, error := 0, lockCount := 0, speed := 256 } }
    ∧ (p.rollPlay d).chu.own.get d = { playerIn := 2 * frame, recorderIn := 2 * a.recordIn, pending := false }
    ∧ (∀ e : DeckNo, e ≠ d → (p.rollPlay d).deck e = p.deck e) ∧ (p.rollPlay d).eds = p.eds ∧ (p.rollPlay d).pku = p.pku := by
  obtain ⟨deck, own, eds, pku⟩ := (p.wantTransport d .play).chaseStart_spec d frame a.recordIn
  rw [Part.rollPlay_player due role arm ((a.inPointOf_eq d).trans inPoint)]
  refine ⟨?_, own, fun e other => ?_, eds, pku⟩
  · rw [deck, (p.wantTransport_spec d .play).1]
  · rw [Part.chaseStart_deck_ne _ other, (p.wantTransport_other .play other).1]

theorem exec_rollPlayDue (s : State) (d : DeckNo) :
    exec (.rollPlayDue d) s = .next { s with part := s.part.rollPlay d } := rfl

end Sys2Proof.Machine
end

section
/-! ## The end of the postroll and the walk of the cursor (O49) -/

namespace Sys2Proof.Machine

open Sys2Proof

/-! ### The arm validation looks at the tapes and the counting (R125 to R129) -/

theorem Deck.role_of_undemanded {j k : Deck} (h : j.undemanded = k.undemanded) : j.role = k.role :=
  (congrArg Deck.role h : j.undemanded.role = k.undemanded.role)

theorem Deck.input_of_undemanded {j k : Deck} (h : j.undemanded = k.undemanded) : j.input = k.input :=
  (congrArg Deck.input h : j.undemanded.input = k.undemanded.input)

theorem Deck.line_of_undemanded {j k : Deck} (h : j.undemanded = k.undemanded) : j.line = k.line :=
  (congrArg Deck.line h : j.undemanded.line = k.undemanded.line)

/-- What the arm validation looks at: roles and inputs of the decks, the counting and the marks. -/
theorem Part.validateArm_congr {p q : Part} (decks : ∀ d, (q.deck d).undemanded = (p.deck d).undemanded)
    (counting : q.counting = p.counting) (marks : q.tcu.marks = p.tcu.marks) (e : EventRecord) :
    q.validateArm e = p.validateArm e := by
  have role (d : DeckNo) : (q.deck d).role = (p.deck d).role := Deck.role_of_undemanded (decks d)
  have input (d : DeckNo) : (q.deck d).input = (p.deck d).input := Deck.input_of_undemanded (decks d)
  have canPlay : q.canPlay = p.canPlay := funext fun d => by rw [Part.canPlay, role, input, Part.canPlay]
  have players : q.playersFault e = p.playersFault e := by rw [Part.playersFault, canPlay, Part.playersFault]
  have keyInput : q.keyInputFault e = p.keyInputFault e := by simp only [Part.keyInputFault, Part.holder, role, input]
  simp only [Part.validateArm, Part.recorder_congr role, players, keyInput, counting, marks]

theorem firstFault_mem {tests : List (Bool × Answer)} {a : Answer} (h : firstFault tests = some a) :
    ∃ b, (b, a) ∈ tests := by
  obtain ⟨⟨b, c⟩, found, rfl⟩ := Option.map_eq_some_iff.1 h
  exact ⟨b, List.mem_of_find?_eq_some found⟩

/-- Every test of the arm validation refuses. -/
theorem Part.armDeckTests_refuse (p : Part) (e : EventRecord) : ∀ t ∈ p.armDeckTests e, t.2.result ≠ .accepted := by
  simp [Part.armDeckTests, Answer.state, Answer.badValue]

theorem EventRecord.valueTests_refuse (e : EventRecord) (c : Counting) (marks : List Mark) :
    ∀ t ∈ e.valueTests c marks, t.2.result ≠ .accepted := by
  simp [EventRecord.valueTests, EventRecord.timingTests, Answer.badValue, Answer.noMark, Answer.cueBorrows, Answer.outWraps]

theorem Part.validateArm_refuses {p : Part} {e : EventRecord} {marks : List Mark} {a : Answer}
    (h : p.validateArm e = { marks := marks, outcome := .error a }) : a.result ≠ .accepted := by
  cases decks : firstFault (p.armDeckTests e) with
  | some b =>
    obtain ⟨_, test⟩ := firstFault_mem decks
    rw [Part.validateArm_of_deckFault decks] at h
    cases h
    exact p.armDeckTests_refuse e _ test
  | none =>
    cases values : firstFault (e.valueTests p.counting p.tcu.marks) with
    | some b =>
      obtain ⟨_, test⟩ := firstFault_mem values
      rw [Part.validateArm_of_valueFault decks values] at h
      cases h
      exact e.valueTests_refuse _ _ _ test
    | none =>
      obtain ⟨v, passes⟩ := Part.validateArm_of_pass decks values
      rw [passes] at h
      cases h

/-! ### Where the cursor arrives (R145) -/

/-- With nothing but EMPTY slots ahead the cursor comes to 63 and the list ends. -/
theorem cursorArrives_past (fuel : Nat) : ∀ (m : Nat) (p : Part), (∀ j : SlotNo, m ≤ j.val → (p.slot j).state = .empty) →
    cursorArrives fuel m p = (p.setCursor 63).endList := by
  induction fuel with
  | zero => exact fun _ _ _ => rfl
  | succ fuel ih =>
    intro m p empty
    unfold cursorArrives
    split
    · rfl
    · next k arrives =>
      have state := empty k (slotOf_val arrives).ge
      rw [state]
      exact ih (m + 1) p fun j later => empty j (Nat.le_of_succ_le later)

/-- The cursor passes the EMPTY slots before a slot. -/
theorem cursorArrives_at {k : SlotNo} (fuel : Nat) : ∀ (m : Nat) (p : Part), m ≤ k.val → k.val < m + fuel →
    (∀ j : SlotNo, m ≤ j.val → j < k → (p.slot j).state = .empty) →
    ∃ rest, cursorArrives fuel m p = cursorArrives (rest + 1) k.val p := by
  induction fuel with
  | zero => exact fun m p before reach _ => absurd reach (Nat.not_lt.2 before)
  | succ fuel ih =>
    intro m p before reach empty
    obtain rfl | passes := Nat.eq_or_lt_of_le before
    · exact ⟨fuel, rfl⟩
    · obtain ⟨rest, arrives⟩ := ih (m + 1) p passes (by omega) fun j later => empty j (Nat.le_of_succ_le later)
      have here : m < 64 := Nat.lt_trans passes k.isLt
      have state : (p.slot ⟨m, here⟩).state = .empty := empty _ (le_refl m) passes
      refine ⟨rest, Eq.trans ?_ arrives⟩
      simp only [cursorArrives, slotOf_slot ⟨m, here⟩, state]

section
variable {p : Part} {k : SlotNo} (rest : Nat)

theorem cursorArrives_armed (armed : (p.slot k).state = .armed) : cursorArrives (rest + 1) k.val p = p.startEvent k := by
  simp only [cursorArrives, slotOf_slot, armed]

/-- A slot that holds an event and is not armed is armed first (R134). -/
theorem cursorArrives_unarmed {e : EventRecord} (event : (p.slot k).event = some e)
    (held : (p.slot k).state ∈ [SlotState.loaded, .done, .failed, .aborted]) :
    cursorArrives (rest + 1) k.val p =
      if (p.armEvent k e).2.result = .accepted then (p.armEvent k e).1.startEvent k
      else ((p.armEvent k e).1.setCursor k).endList := by
  rw [← Part.armSlot_of_event event held]
  simp only [cursorArrives, slotOf_slot]
  cases state : (p.slot k).state with
  | loaded | done | failed | aborted => rfl
  | empty | armed | active => simp [state] at held

end

/-! ### The start of an event (R133, R134) -/

/-- A deck is of an event: the recorder and each deck that the event names (R79). -/
def Part.joins (p : Part) (e : EventRecord) (d : DeckNo) : Bool :=
  (p.deck d).role == .recorder || e.hasBackground d || e.hasFill d

/-- A deck's line state fails a start (R134). -/
def Part.away (p : Part) (d : DeckNo) : Bool := (p.deck d).line == .inLocal || (p.deck d).line == .absent

theorem Part.away_iff (p : Part) (d : DeckNo) : p.away d = true ↔ lineFault (p.deck d).line ≠ none := by
  cases line : (p.deck d).line <;> simp [Part.away, lineFault, line]

theorem Part.joins_congr {p q : Part} (decks : ∀ d, (q.deck d).undemanded = (p.deck d).undemanded) (e : EventRecord)
    (d : DeckNo) : q.joins e d = p.joins e d := by
  have role : (q.deck d).role = (p.deck d).role := Deck.role_of_undemanded (decks d)
  rw [Part.joins, role, Part.joins]

theorem Part.away_congr {p q : Part} (decks : ∀ d, (q.deck d).undemanded = (p.deck d).undemanded) (d : DeckNo) :
    q.away d = p.away d := by
  have line : (q.deck d).line = (p.deck d).line := Deck.line_of_undemanded (decks d)
  rw [Part.away, line, Part.away]

/-- The cue point of a deck of a role. -/
def ArmResults.cueFor (a : ArmResults) (d : DeckNo) (role : Role) : Option Nat :=
  if role = .recorder then some a.recorderCue else (a.player d).map ArmedDeck.cue

theorem Part.cuePoint_eq (p : Part) (a : ArmResults) (d : DeckNo) : p.cuePoint a d = a.cueFor d (p.deck d).role := by
  unfold ArmResults.cueFor
  split
  · exact p.cuePoint_recorder a ‹_›
  · exact p.cuePoint_player a ‹_›

/-- A deck is wanted at its cue point, if it has one. -/
def Deck.cued (k : Deck) : Option Nat → Deck
  | some n => { k with want := .cueTo n, sent := .unknown }
  | none => k

theorem Part.giveCue_deck (p : Part) (a : ArmResults) (d : DeckNo) :
    (p.giveCue a d).deck d = (p.deck d).cued (a.cueFor d (p.deck d).role) := by
  rw [← p.cuePoint_eq]
  unfold Part.giveCue
  split
  · next n point =>
    have cue (q : Part) (c : CueRecord) : (q.setCue d c).deck d = q.deck d := rfl
    rw [point, cue, Part.wantTransportResent, Part.modDeck_deck_self, (p.wantTransport_spec d _).1]
    rfl
  · next point =>
    rw [point]
    rfl

theorem Part.giveCue_deck_ne (p : Part) (a : ArmResults) {d e : DeckNo} (other : d ≠ e) :
    (p.giveCue a e).deck d = p.deck d := by
  unfold Part.giveCue
  split
  · have cue (q : Part) (c : CueRecord) : (q.setCue e c).deck d = q.deck d := rfl
    rw [cue, Part.wantTransportResent, Part.modDeck_deck_ne _ _ other, (p.wantTransport_other _ other).1]
  · rfl

/-- A cue is given to each deck of a list by itself. -/
theorem Part.each_giveCue_deck (p : Part) (a : ArmResults) {ds : List DeckNo} (nodup : ds.Nodup) (d : DeckNo) :
    (p.each ds (fun d r => r.giveCue a d)).deck d =
      if d ∈ ds then (p.deck d).cued (a.cueFor d (p.deck d).role) else p.deck d := by
  have done := Part.each_at (fun d q => (d, q.deck d)) (fun x => (x.1, x.2.cued (a.cueFor x.1 x.2.role)))
    (f := fun d r => r.giveCue a d) (fun _ _ q other => congrArg _ (q.giveCue_deck_ne a other))
    (fun _ q => congrArg _ (q.giveCue_deck a _)) nodup d p
  split
  · next joins => exact congrArg Prod.snd (done.trans (if_pos joins))
  · next stays => exact congrArg Prod.snd (done.trans (if_neg stays))

section
variable {p : Part} {k : SlotNo} {e : EventRecord} (event : (p.slot k).event = some e) (a : ArmResults)

theorem Part.activate_eds (p : Part) (k : SlotNo) (a : ArmResults) :
    (p.activate k a).eds =
      { p.eds with slots := p.eds.slots.modify k (fun s => { s with state := .active }), active := some k, cursor := k
                   phase := .cue, progress := 0, outPoint := a.outPoint, guardRunning := false, guardCount := 0 } :=
  congrArg Prod.snd (p.activate_desk k a)

theorem Part.activate_slot (p : Part) (k : SlotNo) (a : ArmResults) :
    (p.activate k a).slot k = { p.slot k with state := .active } := by
  rw [Part.slot, p.activate_eds k a]
  exact Table.get_modify_self _ _ _

include event

/-- The direct command of each deck of the event drops (R134). -/
theorem Part.activate_deck (d : DeckNo) :
    (p.activate k a).deck d = if p.joins e d = true then { p.deck d with direct := none } else p.deck d := by
  let q := (p.modSlot k (fun s => { s with state := .active })).modEds (fun x => { x with
    active := some k, cursor := k, phase := .cue, progress := 0, outPoint := a.outPoint
    guardRunning := false, guardCount := 0 })
  have active : q.activeEvent = some e := by
    show (q.slot k).event = some e
    rw [show q.slot k = _ from p.modSlot_slot_self k _, event]
  have joins : q.inActiveEvent d = p.joins e d := by
    rw [Part.inActiveEvent, active]
    rfl
  have done := Part.each_at (fun d r => r.deck d) (fun k => { k with direct := none }) (f := fun d r => r.dropDirect d)
    (fun _ _ r other => r.modDeck_deck_ne _ other) (fun _ r => r.modDeck_deck_self _ _) q.eventDecks_nodup d q
  simp only [q.mem_eventDecks, joins] at done
  exact done

theorem Part.activate_inActiveEvent (d : DeckNo) : (p.activate k a).inActiveEvent d = p.joins e d := by
  have active : (p.activate k a).activeEvent = some e := by
    rw [Part.activeEvent, p.activate_eds k a]
    show ((p.activate k a).slot k).event = some e
    rw [p.activate_slot k a, event]
  have role : ((p.activate k a).deck d).role = (p.deck d).role := by
    rw [Part.activate_deck event a d]
    split <;> rfl
  rw [Part.inActiveEvent, active, role]
  rfl

theorem Part.activate_away (d : DeckNo) : (p.activate k a).away d = p.away d := by
  rw [Part.away, Part.activate_deck event a d, Part.away]
  split <;> rfl

/-- The start fails where a deck of the event is away. -/
theorem Part.activate_startFault : (p.activate k a).startFault = none ↔ ∀ d, p.joins e d = true → p.away d = false := by
  have here (d : DeckNo) : lineFault ((p.activate k a).deck d).line = none ↔ p.away d = false := by
    rw [← Part.activate_away event a d, ← Bool.not_eq_true, Part.away_iff, not_ne_iff]
  simp only [Part.startFault, List.findSome?_eq_none_iff, Part.mem_eventDecks, Part.activate_inActiveEvent event a, here]

end

/-- An event that starts, its slot ACTIVE in CUE (R134). -/
theorem Part.startEvent_cues {p : Part} {k : SlotNo} {e : EventRecord} {a : ArmResults} (event : (p.slot k).event = some e)
    (arm : (p.slot k).arm = some a) (here : ∀ d, p.joins e d = true → p.away d = false) :
    p.startEvent k = (p.activate k a).each (p.activate k a).eventDecks (fun d r => r.giveCue a d) := by
  simp only [Part.startEvent, arm, (Part.activate_startFault event a).2 here]

/-- An event of which a deck is away (R134). -/
theorem Part.startEvent_fails {p : Part} {k : SlotNo} {e : EventRecord} {a : ArmResults} (event : (p.slot k).event = some e)
    (arm : (p.slot k).arm = some a) (gone : ∃ d, p.joins e d = true ∧ p.away d = true) :
    ∃ r, p.startEvent k = (p.activate k a).failEvent r := by
  cases fault : (p.activate k a).startFault with
  | none =>
    obtain ⟨d, joins, away⟩ := gone
    rw [(Part.activate_startFault event a).1 fault d joins] at away
    cases away
  | some r => exact ⟨r, by simp only [Part.startEvent, arm, fault]⟩

theorem Part.startEvent_tcu (p : Part) (k : SlotNo) : (p.startEvent k).tcu = p.tcu := by
  have active (a : ArmResults) : (p.activate k a).tcu = p.tcu :=
    Part.each_keeps Part.tcu (fun d r => r.dropDirect d) (fun _ _ => rfl) _ _
  unfold Part.startEvent
  split
  · rfl
  · next a _ =>
    dsimp only
    split
    · exact (Part.tcu_of_tapes (Part.failEvent_tapes _ _)).trans (active a)
    · refine (Part.each_keeps Part.tcu _ (fun d q => ?_) _ _).trans (active a)
      unfold Part.giveCue
      split <;> rfl

/-! ### What the start of an event leaves -/

/-- A deck is wanted at a cue point, with a resend and with no direct command. -/
def Part.CuedAt (p : Part) (d : DeckNo) (point : Nat) : Prop :=
  (p.deck d).want = .cueTo point ∧ (p.deck d).sent = .unknown ∧ (p.deck d).direct = none

section
variable {p : Part} {k : SlotNo} {e : EventRecord} {a : ArmResults} (event : (p.slot k).event = some e)
  (arm : (p.slot k).arm = some a)
include event arm

section
variable (here : ∀ d, p.joins e d = true → p.away d = false)
include here

theorem Part.startEvent_cuedAt {d : DeckNo} (joins : p.joins e d = true) {point : Nat}
    (cue : a.cueFor d (p.deck d).role = some point) : (p.startEvent k).CuedAt d point := by
  have started : (p.startEvent k).deck d = Deck.cued { p.deck d with direct := none } (some point) := by
    rw [Part.startEvent_cues event arm here, Part.each_giveCue_deck _ a (p.activate k a).eventDecks_nodup,
      if_pos (((p.activate k a).mem_eventDecks d).2 ((Part.activate_inActiveEvent event a d).trans joins)),
      Part.activate_deck event a d, if_pos joins, ← cue]
  rw [Part.CuedAt, started]
  exact ⟨rfl, rfl, rfl⟩

/-- The engine of an event that has started, but for the cue records. -/
theorem Part.startEvent_uncued : (p.startEvent k).uncued = (p.activate k a).uncued := by
  rw [Part.startEvent_cues event arm here]
  exact Part.each_keeps Part.uncued _ (fun d q => q.giveCue_uncued a d) _ _

end

/-- The slot FAILED and the list ended, where a deck of the event is away. -/
theorem Part.startEvent_away (gone : ∃ d, p.joins e d = true ∧ p.away d = true) :
    (p.startEvent k).eds.cursor = k ∧ ((p.startEvent k).slot k).state = .failed ∧ (p.startEvent k).eds.phase = .idle
    ∧ (p.startEvent k).noticeSet .eventFailed = true ∧ (p.startEvent k).noticeSet .listEnd = true := by
  obtain ⟨r, fails⟩ := Part.startEvent_fails event arm gone
  have active : (p.activate k a).eds.active = some k := by rw [p.activate_eds k a]
  have eds := (p.activate k a).failEvent_eds r
  rw [Eds.failed, active] at eds
  rw [fails, Part.failEvent_slot _ r active, Part.failEvent_noticeSet, Part.failEvent_noticeSet, active, eds]
  refine ⟨?_, rfl, rfl, by simp, by simp⟩
  rw [p.activate_eds k a]
  rfl

end

/-- Every deck of the event is wanted at its cue point; the deck that two entries name, at that of the first. -/
def Part.CuesAll (p : Part) (e : EventRecord) (a : ArmResults) (q : Part) : Prop :=
  (∀ d : DeckNo, (p.deck d).role = .recorder → q.CuedAt d a.recorderCue)
  ∧ ((p.joins e a.source1.deck && (p.deck a.source1.deck).role != .recorder) = true →
      q.CuedAt a.source1.deck a.source1.cue)
  ∧ (∀ y : ArmedDeck, a.source2 = some y → (p.joins e y.deck && (p.deck y.deck).role != .recorder) = true →
      y.deck ≠ a.source1.deck → q.CuedAt y.deck y.cue)
  ∧ (∀ y : ArmedDeck, a.fill = some y → (p.joins e y.deck && (p.deck y.deck).role != .recorder) = true →
      y.deck ≠ a.source1.deck → (∀ z : ArmedDeck, a.source2 = some z → y.deck ≠ z.deck) → q.CuedAt y.deck y.cue)

/-- What the start of the event of slot `k`, which holds `x` and has the arm results `a` and the run results `run`, leaves
in `q` where the list stood at `p`. -/
def Part.StartsFrom (p : Part) (k : SlotNo) (e : EventRecord) (x : Slot) (a : ArmResults) (run : RunResults)
    (q : Part) : Prop :=
  q.eds.cursor = k
  ∧ ((∀ d : DeckNo, p.joins e d = true → p.away d = false) →
      q.slot k = { x with state := .active, arm := some a, run := run } ∧ q.eds.active = some k
      ∧ q.eds.phase = .cue ∧ q.eds.latch = p.eds.latch ∧ q.eds.outPoint = a.outPoint ∧ q.eds.progress = 0
      ∧ q.noticeSet .listEnd = p.noticeSet .listEnd ∧ p.CuesAll e a q)
  ∧ ((∃ d : DeckNo, p.joins e d = true ∧ p.away d = true) → (q.slot k).state = .failed ∧ q.eds.phase = .idle
      ∧ q.noticeSet .eventFailed = true ∧ q.noticeSet .listEnd = true)

section
variable {p : Part} {k : SlotNo} {e : EventRecord} {a : ArmResults} (event : (p.slot k).event = some e)
  (arm : (p.slot k).arm = some a)
include event arm

theorem Part.startEvent_cuesAll (here : ∀ d, p.joins e d = true → p.away d = false) : p.CuesAll e a (p.startEvent k) := by
  have player {y : ArmedDeck} (speaks : a.player y.deck = some y)
      (plays : (p.joins e y.deck && (p.deck y.deck).role != .recorder) = true) :
      (p.startEvent k).CuedAt y.deck y.cue := by
    obtain ⟨joins, role⟩ := Bool.and_eq_true_iff.1 plays
    refine Part.startEvent_cuedAt event arm here joins ?_
    rw [ArmResults.cueFor, if_neg (by simpa using role), speaks, Option.map_some]
  refine ⟨fun d role => ?_, player a.player_source1, fun y two plays one => player (a.player_source2 two one) plays,
    fun y fill plays one two => player (a.player_fill fill one two) plays⟩
  exact Part.startEvent_cuedAt event arm here (by simp [Part.joins, role]) (if_pos role)

/-- The event of an armed slot starts, or fails at once (R134). -/
theorem Part.startEvent_startsFrom : p.StartsFrom k e (p.slot k) a (p.slot k).run (p.startEvent k) := by
  have away := Part.startEvent_away event arm
  by_cases here : ∀ d, p.joins e d = true → p.away d = false
  · obtain ⟨pku, eds⟩ := Prod.mk.inj (Part.startEvent_uncued event arm here)
    have active := p.activate_eds k a
    have slot : (p.startEvent k).slot k = { p.slot k with state := .active } :=
      (congrArg (fun x : Eds => x.slots.get k) eds).trans (p.activate_slot k a)
    have kept : (p.activate k a).pku = p.pku := congrArg Prod.fst (p.activate_desk k a)
    refine ⟨?_, fun _ => ⟨?_, ?_, ?_, ?_, ?_, ?_, Part.noticeSet_congr (pku.trans kept) _,
      Part.startEvent_cuesAll event arm here⟩, fun gone => (away gone).2⟩
    · exact (congrArg Eds.cursor eds).trans (congrArg Eds.cursor active)
    · rw [slot, ← arm]
    · exact (congrArg Eds.active eds).trans (congrArg Eds.active active)
    · exact (congrArg Eds.phase eds).trans (congrArg Eds.phase active)
    · have latch : (p.activate k a).eds.latch = p.eds.latch := by rw [active]
      exact (congrArg Eds.latch eds).trans latch
    · exact (congrArg Eds.outPoint eds).trans (congrArg Eds.outPoint active)
    · exact (congrArg Eds.progress eds).trans (congrArg Eds.progress active)
  · have gone : ∃ d, p.joins e d = true ∧ p.away d = true := by simpa using here
    exact ⟨(away gone).1, fun all => absurd all here, fun _ => (away gone).2⟩

end

/-! ### The list between two events (R145) -/

/-- In `q` the list goes on from `p` with the event of slot `n` ended: tapes, timing, latch and LIST_END are as they were,
and so is every other slot. -/
structure Part.GoesOn (p : Part) (n : SlotNo) (q : Part) : Prop where
  tapes : q.tapes = p.tapes
  rtu : q.rtu = p.rtu
  latch : q.eds.latch = p.eds.latch
  listEnd : q.noticeSet .listEnd = p.noticeSet .listEnd
  slot : ∀ k, k ≠ n → q.slot k = p.slot k

namespace Part.GoesOn

/-- The entry into IDLE with the latch kept changes none of it. -/
theorem enterIdle {p q : Part} {n : SlotNo} (h : p.GoesOn n q) : p.GoesOn n (q.enterIdle true) :=
  ⟨h.tapes, h.rtu, (Bool.and_true _).trans h.latch, h.listEnd, h.slot⟩

variable {p q : Part} {n : SlotNo} (h : p.GoesOn n q)
include h

theorem deck (d : DeckNo) : (q.deck d).undemanded = (p.deck d).undemanded := Part.undemanded_of_tapes h.tapes d

theorem validateArm (e : EventRecord) : q.validateArm e = p.validateArm e := by
  have tcu : q.tcu = p.tcu := Part.tcu_of_tapes h.tapes
  refine Part.validateArm_congr h.deck ?_ (by rw [tcu]) e
  rw [Part.counting, h.rtu, tcu, Part.counting]

end Part.GoesOn

/-- A start from where the list goes on is a start from where it stood. -/
theorem Part.StartsFrom.of_decks {p q r : Part} {k : SlotNo} {e : EventRecord} {x y : Slot} {a : ArmResults}
    {run : RunResults} (h : q.StartsFrom k e y a run r) (decks : ∀ d, (q.deck d).undemanded = (p.deck d).undemanded)
    (latch : q.eds.latch = p.eds.latch) (listEnd : q.noticeSet .listEnd = p.noticeSet .listEnd)
    (slot : y.event = x.event) : p.StartsFrom k e x a run r := by
  have role (d : DeckNo) : (q.deck d).role = (p.deck d).role := Deck.role_of_undemanded (decks d)
  obtain ⟨cursor, starts, fails⟩ := h
  simp only [Part.joins_congr decks, Part.away_congr decks, latch, listEnd, Part.CuesAll, role, slot] at starts fails
  exact ⟨cursor, starts, fails⟩

section
variable {p q : Part} {n k : SlotNo} {e : EventRecord} (h : p.GoesOn n q) (later : n < k)
  (passed : ∀ j : SlotNo, n < j → j < k → (p.slot j).state = .empty)
include h later passed

/-- The cursor passes the EMPTY slots between the one that has ended and the next that holds an event. -/
theorem Part.GoesOn.arrives : ∃ rest, cursorArrives 64 (n.val + 1) q = cursorArrives (rest + 1) k.val q :=
  cursorArrives_at 64 (n.val + 1) q later (by omega) fun j after before => by
    rw [h.slot j (ne_of_gt after)]
    exact passed j after before

theorem Part.GoesOn.armed {a : ArmResults} (event : (p.slot k).event = some e) (state : (p.slot k).state = .armed)
    (arm : (p.slot k).arm = some a) :
    p.StartsFrom k e (p.slot k) a (p.slot k).run (cursorArrives 64 (n.val + 1) q) := by
  have slot := h.slot k (ne_of_gt later)
  obtain ⟨rest, arrives⟩ := h.arrives later passed
  rw [arrives, cursorArrives_armed rest (slot ▸ state), ← slot]
  rw [← slot] at event arm
  exact (Part.startEvent_startsFrom event arm).of_decks h.deck h.latch h.listEnd rfl

section
variable (event : (p.slot k).event = some e) (held : (p.slot k).state ∈ [SlotState.loaded, .done, .failed, .aborted])
include event held

/-- An event that can be armed is armed and started, the mark it asks for spent (R134). -/
theorem Part.GoesOn.arms {marks : List Mark} {a : ArmResults} {normalised : Bool}
    (ok : p.validateArm e = { marks := marks, outcome := .ok (a, normalised) }) :
    p.StartsFrom k e (p.slot k) a .fresh (cursorArrives 64 (n.val + 1) q)
    ∧ (cursorArrives 64 (n.val + 1) q).tcu.marks = marks := by
  have slot := h.slot k (ne_of_gt later)
  obtain ⟨rest, arrives⟩ := h.arrives later passed
  rw [arrives, cursorArrives_unarmed rest (slot ▸ event) (slot ▸ held), Part.armEvent_of_ok ((h.validateArm e).trans ok),
    if_pos rfl]
  let r := (q.modTcu (fun t => { t with marks := marks })).modSlot k (·.armedWith a)
  have armed : r.slot k = (p.slot k).armedWith a := by
    rw [← slot]
    exact Part.modSlot_slot_self _ k _
  have starts := Part.startEvent_startsFrom (p := r) (k := k) (e := e) (a := a) (armed ▸ event) (armed ▸ rfl)
  have fresh : (r.slot k).run = .fresh := by
    rw [armed]
    rfl
  rw [fresh] at starts
  exact ⟨starts.of_decks (p := p) h.deck h.latch h.listEnd (by rw [armed]; rfl), by rw [Part.startEvent_tcu]; rfl⟩

/-- The list ends on an event that cannot be armed (R134). -/
theorem Part.GoesOn.refuses {marks : List Mark} {a : Answer}
    (error : p.validateArm e = { marks := marks, outcome := .error a }) :
    let r := cursorArrives 64 (n.val + 1) q
    r.slot k = p.slot k ∧ r.tcu.marks = marks ∧ r.eds.cursor = k ∧ r.eds.phase = .idle ∧ r.eds.active = none
    ∧ r.noticeSet .listEnd = true := by
  have slot := h.slot k (ne_of_gt later)
  obtain ⟨rest, arrives⟩ := h.arrives later passed
  dsimp only
  rw [arrives, cursorArrives_unarmed rest (slot ▸ event) (slot ▸ held),
    Part.armEvent_of_error ((h.validateArm e).trans error), if_neg (Part.validateArm_refuses error)]
  exact ⟨slot, rfl, rfl, rfl, rfl, Part.raise_noticeSet _ .listEnd⟩

end

end

/-! ### The end of the postroll (R145) -/

/-- The decks of the event wanted STILL, their chases stopped and the preload with the host. -/
def Part.runDown (p : Part) : Part := (p.stillAll.chaseStopAll).modMep Mep.release

theorem Part.runDown_desk (p : Part) : p.runDown.desk = p.desk := by simp [Part.runDown]
theorem Part.runDown_tapes (p : Part) : p.runDown.tapes = p.tapes := by simp [Part.runDown]
theorem Part.runDown_aside (p : Part) : p.runDown.aside = p.aside := by simp [Part.runDown]

/-- The event that has ended as DONE, before the list goes on. -/
def Part.postrolled (p : Part) : Part := (p.runDown.closeSlot .done .noReason).raise .eventDone

/-- A list that ends with the cursor on a slot. -/
theorem Part.setCursor_endList (p : Part) (k : SlotNo) :
    (p.setCursor k).endList.eds.phase = .idle ∧ (p.setCursor k).endList.eds.active = none
    ∧ (p.setCursor k).endList.noticeSet .listEnd = true ∧ (p.setCursor k).endList.eds.cursor = k :=
  ⟨rfl, rfl, Part.raise_noticeSet _ .listEnd, rfl⟩

theorem nextSlot_cases (n : SlotNo) : (nextSlot n).val = n.val + 1 ∨ (n = 63 ∧ nextSlot n = 63) := by
  unfold nextSlot
  split
  · exact .inl rfl
  · have last : n = 63 := by
      apply Fin.ext
      show n.val = 63
      omega
    exact .inr ⟨last, last⟩

section
variable {p : Part} {n : SlotNo} (active : p.eds.active = some n)
include active

theorem Part.endPostroll_eq : p.endPostroll = p.postrolled.moveOn n := by
  simp only [Part.endPostroll, active]
  rfl

theorem Part.postrolled_eq : p.postrolled = (p.runDown.modSlot n (·.closed .done .noReason)).raise .eventDone := by
  rw [Part.postrolled, p.runDown.closeSlot_some _ _ ((congrArg Eds.active (Part.eds_of_desk p.runDown_desk)).trans active)]

theorem Part.postrolled_eds : p.postrolled.eds = { p.eds with slots := p.eds.slots.modify n (·.closed .done .noReason) } := by
  rw [Part.postrolled_eq active, Part.raise_eds, Part.modSlot, Part.modEds_eds, Part.eds_of_desk p.runDown_desk]

theorem Part.postrolled_goesOn : p.GoesOn n p.postrolled where
  tapes := by rw [Part.postrolled_eq active, Part.raise_tapes, Part.modSlot_tapes, p.runDown_tapes]
  rtu := by rw [Part.postrolled_eq active, Part.raise_rtu, Part.modSlot_rtu, Part.rtu_of_aside p.runDown_aside]
  latch := by rw [Part.postrolled_eds active]
  listEnd := by
    have pku : (p.runDown.modSlot n (·.closed .done .noReason)).pku = p.pku := by
      rw [Part.modSlot_pku, Part.pku_of_desk p.runDown_desk]
    rw [Part.postrolled_eq active, Part.raise_noticeSet_ne _ (by decide), Part.noticeSet_congr pku]
  slot k other := by
    rw [Part.slot, Part.postrolled_eds active]
    exact Table.get_modify_ne _ _ other

/-- A stop request ends the list one slot further on (R145). -/
theorem Part.endPostroll_stopped (stop : p.eds.stopRequest = true) :
    p.endPostroll.eds.phase = .idle ∧ p.endPostroll.eds.active = none ∧ p.endPostroll.noticeSet .listEnd = true
    ∧ (p.endPostroll.eds.cursor.val = n.val + 1 ∨ (n = 63 ∧ p.endPostroll.eds.cursor = 63)) := by
  have asked : p.postrolled.eds.stopRequest = true := by rw [Part.postrolled_eds active, stop]
  rw [Part.endPostroll_eq active, Part.moveOn, if_pos (by simp [asked])]
  obtain ⟨idle, none_active, listEnd, cursor⟩ := p.postrolled.setCursor_endList (nextSlot n)
  rw [cursor]
  exact ⟨idle, none_active, listEnd, nextSlot_cases n⟩

theorem Part.endPostroll_walks (go : p.eds.stopRequest = false) (more : n ≠ 63) :
    p.endPostroll = cursorArrives 64 (n.val + 1) (p.postrolled.enterIdle true) := by
  have asked : p.postrolled.eds.stopRequest = false := by rw [Part.postrolled_eds active, go]
  have below : n.val ≠ 63 := fun last => more (Fin.ext last)
  rw [Part.endPostroll_eq active, Part.moveOn, if_neg (by simp [asked, below])]

/-- Past slot 63 the list ends with the cursor there (R145). -/
theorem Part.endPostroll_past (go : p.eds.stopRequest = false) (empty : ∀ j : SlotNo, n < j → (p.slot j).state = .empty) :
    p.endPostroll.eds.phase = .idle ∧ p.endPostroll.eds.active = none ∧ p.endPostroll.noticeSet .listEnd = true
    ∧ p.endPostroll.eds.cursor = 63 := by
  by_cases last : n = 63
  · subst last
    rw [Part.endPostroll_eq active, Part.moveOn, if_pos (by simp)]
    exact p.postrolled.setCursor_endList (nextSlot 63)
  · rw [Part.endPostroll_walks active go last, cursorArrives_past 64 (n.val + 1) _ fun j after => by
      rw [(Part.postrolled_goesOn active).enterIdle.slot j (ne_of_gt after)]
      exact empty j after]
    exact Part.setCursor_endList _ 63

end

/-- The event of the next slot that holds one starts, is refused, or fails at once (R134, R145). -/
theorem Part.endPostroll_next {p : Part} {n k : SlotNo} {e : EventRecord} (active : p.eds.active = some n)
    (go : p.eds.stopRequest = false) (later : n < k) (passed : ∀ j : SlotNo, n < j → j < k → (p.slot j).state = .empty)
    (event : (p.slot k).event = some e) :
    (∀ a, (p.slot k).state = .armed → (p.slot k).arm = some a →
      p.StartsFrom k e (p.slot k) a (p.slot k).run p.endPostroll)
    ∧ ((p.slot k).state ∈ [SlotState.loaded, .done, .failed, .aborted] →
        (∀ marks a normalised, p.validateArm e = { marks := marks, outcome := .ok (a, normalised) } →
          p.StartsFrom k e (p.slot k) a .fresh p.endPostroll ∧ p.endPostroll.tcu.marks = marks)
        ∧ ∀ marks a, p.validateArm e = { marks := marks, outcome := .error a } →
            p.endPostroll.slot k = p.slot k ∧ p.endPostroll.tcu.marks = marks ∧ p.endPostroll.eds.cursor = k
            ∧ p.endPostroll.eds.phase = .idle ∧ p.endPostroll.eds.active = none
            ∧ p.endPostroll.noticeSet .listEnd = true) := by
  have more : n ≠ 63 := by
    rintro rfl
    exact absurd later (not_lt.2 (Fin.le_last k))
  have goes := (Part.postrolled_goesOn active).enterIdle
  rw [Part.endPostroll_walks active go more]
  exact ⟨fun a state arm => goes.armed later passed event state arm, fun held =>
    ⟨fun marks a normalised ok => goes.arms later passed event held ok,
      fun marks a error => goes.refuses later passed event held error⟩⟩

theorem exec_postrollEnd {s : State} (phase : s.part.eds.phase = .postroll) (count : s.part.eds.postroll = 0) :
    exec .postrollEnd s = .next { s with part := s.part.endPostroll } := by
  show execPostrollEnd s = _
  rw [execPostrollEnd, if_pos ⟨phase, count⟩]
  rfl

end Sys2Proof.Machine
end

section
/-! ## The judgement of a deck's cue (O49) -/

namespace Sys2Proof.Machine

open Sys2Proof

/-! ### The measurement in CUE -/

theorem Part.chaseLost_off (p : Part) (r : Reason) (h : p.eds.phase.running = false) : p.chaseLost r = p := by
  simp [Part.chaseLost, h]

theorem Part.syncLost_off (p : Part) (h : p.eds.phase.running = false) : p.syncLost = p := by
  have phase : p.eds.phase ≠ .record := by
    intro record
    simp [record, Phase.running] at h
  exact if_neg phase

section
variable {p : Part} (h : p.eds.phase.running = false)
include h

/-- Outside ROLL and RECORD a computation leaves engine and mixer alone. -/
theorem Part.computeWith_engine (d r : DeckNo) :
    (p.computeWith d r).eds = p.eds ∧ (p.computeWith d r).mep = p.mep := by
  unfold Part.computeWith
  extract_lets o e v q
  split
  · rw [Part.loseChase, Part.chaseLost_off (p.modDeck d _) _ h]
    exact ⟨rfl, rfl⟩
  · split
    · rw [q.syncLost_off h]
      exact ⟨rfl, rfl⟩
    · exact ⟨rfl, rfl⟩

theorem Part.positionMeasured_engine (d : DeckNo) :
    (p.positionMeasured d).eds = p.eds ∧ (p.positionMeasured d).mep = p.mep := by
  unfold Part.positionMeasured
  split
  · split
    · exact ⟨rfl, rfl⟩
    · unfold Part.compute
      split
      · exact ⟨rfl, rfl⟩
      · split
        · exact Part.computeWith_engine h d _
        · exact ⟨rfl, rfl⟩
  · exact ⟨rfl, rfl⟩

theorem Part.replyMeasured_engine (d : DeckNo) (x : Flight) (r : DeckReply) :
    (p.replyMeasured d x r).eds = p.eds ∧ (p.replyMeasured d x r).mep = p.mep := by
  have eds : ((p.replyTold d x r).replyRecorded d r.label r.source x.field).eds = p.eds := p.replyTold_eds d x r
  have mep : ((p.replyTold d x r).replyRecorded d r.label r.source x.field).mep = p.mep := by
    show (p.replyTold d x r).mep = p.mep
    rw [p.replyTold_eq]
    rfl
  rw [Part.replyMeasured]
  rcases (p.replyTold d x r).deckMeasurement_cases d r.label r.source x.field with same | measured
  · rw [same]
    exact ⟨eds, mep⟩
  · obtain ⟨kept_eds, kept_mep⟩ := Part.positionMeasured_engine (eds ▸ h) d
    rw [measured]
    exact ⟨kept_eds.trans eds, kept_mep.trans mep⟩

end

/-- Outside RECORD the reply to a record frame is written into the slot of the event, and nothing else (R142). -/
theorem Part.recordReport_slots {p : Part} (h : p.eds.phase ≠ .record) (d : DeckNo) (f : Frame) (refused : Bool)
    (label : RawLabel) : ∃ slots, p.recordReport d f refused label = { p with eds := { p.eds with slots := slots } } := by
  unfold Part.recordReport
  split
  · exact ⟨p.eds.slots, rfl⟩
  · split
    · split
      · exact ⟨_, rfl⟩
      · exact ⟨_, rfl⟩
      · exact ⟨p.eds.slots, rfl⟩
      · exact ⟨p.eds.slots, rfl⟩
    · exact ⟨p.eds.slots, rfl⟩

/-! ### The judgement (R135) -/

theorem frameDistance_le (c : Counting) (a b tolerance : Nat) :
    frameDistance c a b ≤ tolerance ↔
      ((a : Int) - b) % c.dayFrames ≤ tolerance ∨ (-((a : Int) - b)) % c.dayFrames ≤ tolerance := by
  rw [frameDistance, min_le_iff, Int.toNat_le, Int.toNat_le, neg_sub]

theorem cueTaken_iff (f : Frame) (refused : Bool) (point : Nat) :
    cueTaken f refused point = true ↔ refused = false ∧ ∃ label, f = .cueTo point label := by
  cases f <;> simp [cueTaken]

/-- The deck stands still at a valid position. -/
def Part.Parked (p : Part) (d : DeckNo) : Prop := (p.deck d).transport = .still ∧ (p.deck d).position.valid = true

/-- The deck's position lies within the tolerance of a cue point. -/
def Part.NearCue (p : Part) (d : DeckNo) (point : Nat) : Prop :=
  frameDistance p.counting ((p.deck d).position.position / 2) point ≤ (p.deck d).params.tolerance

/-- A cue is taken, or is taken with this reply. -/
def CueRecord.Takes (c : CueRecord) (f : Frame) (refused : Bool) (point : Nat) : Prop :=
  c.state = .taken ∨ (c.state = .waiting ∧ refused = false ∧ ∃ label, f = .cueTo point label)

section
variable {p : Part} {d : DeckNo} (point : Nat) (c : CueRecord)

theorem Part.judgeCue_unparked (h : ¬ p.Parked d) : p.judgeCue d point c = p.setCue d c := if_neg h

theorem Part.judgeCue_near (h : p.Parked d) (near : p.NearCue d point) :
    p.judgeCue d point c = (p.setCue d { c with state := .reached }).leaveCue :=
  (if_pos h).trans (if_pos near)

theorem Part.judgeCue_recues (h : p.Parked d) (far : ¬ p.NearCue d point) (first : c.misses = 0) :
    p.judgeCue d point c = (p.wantTransportResent d (.cueTo point)).setCue d { c with state := .waiting, misses := 1 } :=
  ((if_pos h).trans (if_neg far)).trans (if_pos first)

theorem Part.judgeCue_fails (h : p.Parked d) (far : ¬ p.NearCue d point) (again : c.misses ≠ 0) :
    p.judgeCue d point c = p.failEvent .cueMiss :=
  ((if_pos h).trans (if_neg far)).trans (if_neg again)

end

section
variable {p : Part} {d : DeckNo} {a : ArmResults} {c : CueRecord} {point : Nat} (phase : p.eds.phase = .cue)
  (arm : p.activeArm = some a) (cue : p.cuePoint a d = some point) (record : p.eds.cues.get d = some c)
  (f : Frame) (refused : Bool)
include phase arm cue record

theorem Part.cueReport_untaken (h : ¬ c.Takes f refused point) : p.cueReport d f refused = p := by
  have unanswered : c.state = .waiting → cueTaken f refused point = false := fun waiting => by
    rw [← Bool.not_eq_true, cueTaken_iff]
    exact fun answers => h (.inr ⟨waiting, answers⟩)
  simp only [Part.cueReport, phase, arm, cue, record]
  cases state : c.state with
  | reached => rfl
  | taken => exact absurd (.inl state) h
  | waiting => simp [unanswered state]

theorem Part.cueReport_taken (h : c.Takes f refused point) :
    p.cueReport d f refused = p.judgeCue d point { c with state := .taken } := by
  simp only [Part.cueReport, phase, arm, cue, record]
  obtain taken | ⟨waiting, answers⟩ := h
  · simp only [taken]
    rw [← taken]
  · simp only [waiting, (cueTaken_iff f refused point).2 answers, if_true]

end

/-! ### The last deck reaches cue (R137, R138) -/

section
variable {p : Part} {d : DeckNo} (c : CueRecord)

/-- With one deck of the event at its cue point it is for the others to reach theirs. -/
theorem Part.allReached_setCue (event : p.inActiveEvent d = true) :
    (p.setCue d { c with state := .reached }).allReached = true ↔
      ∀ y, y ≠ d → p.inActiveEvent y = true → (p.eds.cues.get y).map CueRecord.state = some .reached := by
  have cues (y : DeckNo) : ((p.setCue d { c with state := .reached }).eds.cues.get y).map CueRecord.state =
      if y = d then some .reached else (p.eds.cues.get y).map CueRecord.state := by
    show ((p.eds.cues.set d _).get y).map _ = _
    split
    · next same =>
      subst same
      rw [Table.get_set_self]
      rfl
    · next other => rw [Table.get_set_ne _ _ other]
  have joins (y : DeckNo) : (p.setCue d { c with state := .reached }).inActiveEvent y = p.inActiveEvent y := rfl
  simp only [Part.allReached_iff, cues, joins]
  constructor
  · intro all y other joins
    simpa [other] using all y joins
  · intro all y joins
    by_cases same : y = d
    · simp [same]
    · simpa [same] using all y same joins

theorem Part.leaveCue_unlocked (h : p.rtu.lock ≠ .locked) : p.leaveCue = p := if_neg fun all => h all.2.1

end

/-- An event waits in HOLD: the decks of the event wanted STILL, the mixer as it was (R138). -/
theorem Part.enterHold_decks (p : Part) (latch : p.eds.latch = false) :
    p.enterHold.mep = p.mep ∧ ∀ d, p.inActiveEvent d = true → (p.enterHold.deck d).want = .still := by
  rw [p.enterHold_waits latch]
  refine ⟨?_, fun d event => ?_⟩
  · show p.stillAll.mep = p.mep
    exact Part.each_keeps Part.mep (fun d q => q.wantTransport d .still) (fun _ _ => rfl) _ _
  · show (p.stillAll.deck d).want = .still
    have bay := p.stillAll_bay d
    rw [event] at bay
    exact (congrArg (·.deck.want) bay :)

/-- The lock stands and every other deck of the event has reached cue. -/
def Part.LastToReach (m : Part) (d : DeckNo) : Prop :=
  m.rtu.lock = .locked
  ∧ ∀ y, y ≠ d → m.inActiveEvent y = true → (m.eds.cues.get y).map CueRecord.state = some .reached

/-- From CUE in `m` the event has come to ROLL in `q`, or to wait in HOLD where it asks for it and no release is latched. -/
def Part.LeftCue (m : Part) (e : EventRecord) (q : Part) : Prop :=
  (e.hold = .noHold ∨ m.eds.latch = true → q.eds.phase = .roll ∧ q.eds.holdWaiting = false
    ∧ q.mep.owner = .eds ∧ q.mep.preload.level = 0 ∧ q.eds.latch = (if e.hold = .noHold then m.eds.latch else false))
  ∧ (e.hold = .beforeRoll → m.eds.latch = false → q.eds.phase = .hold ∧ q.eds.holdWaiting = true
    ∧ q.noticeSet .holdWaiting = true ∧ q.mep = m.mep
    ∧ ∀ y : DeckNo, m.inActiveEvent y = true → (q.deck y).want = .still)

/-- The engine of `q` is that of `m` but for one cue record and the slots. -/
def Part.Recorded (m : Part) (d : DeckNo) (c : CueRecord) (q : Part) : Prop :=
  q.eds = { m.eds with cues := m.eds.cues.set d (some c), slots := q.eds.slots }

/-- What a good reply of a deck does in CUE: `m` is the state in which the EDS hears of it, `q` what the judgement leaves. -/
structure Part.CueJudged (m : Part) (d : DeckNo) (n : SlotNo) (e : EventRecord) (c : CueRecord) (point : Nat) (takes : Prop)
    (q : Part) : Prop where
  untaken : ¬ takes → q.eds = { m.eds with slots := q.eds.slots }
  waits : takes → ¬ m.Parked d → m.Recorded d { c with state := .taken } q
  reaches : takes → m.Parked d → m.NearCue d point → ¬ m.LastToReach d → m.inActiveEvent d = true →
    m.Recorded d { c with state := .reached } q
  leaves : takes → m.Parked d → m.NearCue d point → m.LastToReach d → m.inActiveEvent d = true → m.LeftCue e q
  recues : takes → m.Parked d → ¬ m.NearCue d point → c.misses = 0 →
    (q.deck d).want = .cueTo point ∧ (q.deck d).sent = .unknown ∧ m.Recorded d { c with state := .waiting, misses := 1 } q
  fails : takes → m.Parked d → ¬ m.NearCue d point → c.misses ≠ 0 → (q.slot n).state = .failed
    ∧ (q.slot n).run.reason = .cueMiss ∧ q.eds.phase = .idle ∧ q.noticeSet .eventFailed = true

section
variable {m : Part} {d : DeckNo} {n : SlotNo} {e : EventRecord} {a : ArmResults} {c : CueRecord} {point : Nat}
  (phase : m.eds.phase = .cue) (active : m.eds.active = some n) (event : m.activeEvent = some e)
  (arm : m.activeArm = some a) (cue : m.cuePoint a d = some point) (record : m.eds.cues.get d = some c)
  (f : Frame) (refused : Bool) (label : RawLabel)

include phase event in
/-- The last deck of the event reaches cue under LOCKED: the event rolls or waits in HOLD, and the reply is then read for a
record frame (R137, R138). -/
theorem Part.lastReached_leaves (joins : m.inActiveEvent d = true) (last : m.LastToReach d) :
    m.LeftCue e ((m.setCue d { c with state := .reached }).leaveCue.recordReport d f refused label) := by
  let r := m.setCue d { c with state := .reached }
  have moves : r.leaveCue = if e.hold = .beforeRoll then r.enterHold else r.enterRoll :=
    r.leaveCue_moves phase last.1 ((Part.allReached_setCue c joins).2 last.2) event
  have alive : r.activeEvent ≠ none := by
    rw [show r.activeEvent = some e from event]
    exact Option.some_ne_none e
  have rolls {q : Part} (latch : Bool) (into : q.Rolls ∧ q.eds.latch = latch) :
      let t := q.recordReport d f refused label
      t.eds.phase = .roll ∧ t.eds.holdWaiting = false ∧ t.mep.owner = .eds ∧ t.mep.preload.level = 0
        ∧ t.eds.latch = latch := by
    obtain ⟨⟨roll, holdWaiting, owner, level⟩, latch⟩ := into
    obtain ⟨slots, reported⟩ := Part.recordReport_slots (p := q) (by simp [roll]) d f refused label
    rw [reported]
    exact ⟨roll, holdWaiting, owner, level, latch⟩
  rw [show (m.setCue d { c with state := .reached }).leaveCue = _ from moves]
  refine ⟨fun goes => ?_, fun holds latch => ?_⟩
  · cases hold : e.hold with
    | noHold => exact rolls m.eds.latch (r.enterRoll_rolls alive)
    | beforeRoll =>
      have latch : r.eds.latch = true := goes.resolve_left (by simp [hold])
      exact rolls false (r.enterHold_rolls alive latch)
  · rw [if_pos holds]
    obtain ⟨eds, notice⟩ := r.enterHold_waiting latch
    obtain ⟨mep, want⟩ := r.enterHold_decks latch
    obtain ⟨slots, reported⟩ := Part.recordReport_slots (p := r.enterHold) (by simp [eds]) d f refused label
    rw [reported]
    exact ⟨congrArg Eds.phase eds, congrArg Eds.holdWaiting eds, notice, mep, want⟩

include phase active event arm cue record

/-- The EDS hears of a good reply in CUE (R135, R137, R138). -/
theorem Part.deckReported_cueJudged :
    m.CueJudged d n e c point (c.Takes f refused point) (m.deckReported d f refused label) := by
  have stays {q : Part} (cue : q.eds.phase = .cue) :
      ∃ slots, q.recordReport d f refused label = { q with eds := { q.eds with slots := slots } } :=
    Part.recordReport_slots (by simp [cue]) d f refused label
  have judged := Part.cueReport_taken phase arm cue record f refused
  refine ⟨fun untaken => ?_, fun takes unparked => ?_, fun takes parked near early joins => ?_,
    fun takes parked near last joins => ?_, fun takes parked far first => ?_, fun takes parked far again => ?_⟩
  · rw [Part.deckReported, Part.cueReport_untaken phase arm cue record f refused untaken]
    obtain ⟨slots, reported⟩ := stays phase
    rw [reported]
  · rw [Part.deckReported, judged takes, Part.judgeCue_unparked _ _ unparked]
    obtain ⟨slots, reported⟩ := stays (q := m.setCue d { c with state := .taken }) phase
    rw [reported]
    rfl
  · have remains : (m.setCue d { c with state := .reached }).leaveCue = m.setCue d { c with state := .reached } := by
      by_cases lock : m.rtu.lock = .locked
      · refine Part.leaveCue_stays _ (Bool.eq_false_iff.2 fun all => early ⟨lock, ?_⟩)
        exact (Part.allReached_setCue c joins).1 all
      · exact Part.leaveCue_unlocked lock
    rw [Part.deckReported, judged takes, Part.judgeCue_near _ _ parked near, remains]
    obtain ⟨slots, reported⟩ := stays (q := m.setCue d { c with state := .reached }) phase
    rw [reported]
    rfl
  · rw [Part.deckReported, judged takes, Part.judgeCue_near _ _ parked near]
    exact Part.lastReached_leaves phase event f refused label joins last
  · rw [Part.deckReported, judged takes, Part.judgeCue_recues point { c with state := .taken } parked far first]
    let q := (m.wantTransportResent d (.cueTo point)).setCue d { c with state := .waiting, misses := 1 }
    have deck : q.deck d = { m.deck d with want := .cueTo point, sent := .unknown } := by
      show (m.wantTransportResent d (.cueTo point)).deck d = _
      rw [Part.wantTransportResent, Part.modDeck_deck_self, (m.wantTransport_spec d _).1]
    obtain ⟨slots, reported⟩ := stays (q := q) phase
    rw [reported]
    exact ⟨congrArg Deck.want deck, congrArg Deck.sent deck, rfl⟩
  · have idle := m.failEvent_active .cueMiss
    have eds := m.failEvent_eds .cueMiss
    rw [Eds.failed, active] at eds
    rw [Part.deckReported, judged takes, Part.judgeCue_fails point { c with state := .taken } parked far again,
      Part.recordReport_idle idle, Part.failEvent_slot _ _ active, Part.failEvent_noticeSet, active]
    exact ⟨rfl, rfl, by rw [eds]; rfl, by simp⟩

end

/-! ### A good reply in CUE -/

theorem Part.Steers.params {p q : Part} (h : p.Steers q) (d : DeckNo) : (q.deck d).params = (p.deck d).params :=
  (congrArg Deck.params (h.deck d) :)

/-- A deck online stays so with a reply that is not LOCAL, and the line says nothing of it. -/
theorem Part.goodReply_online {p : Part} {d : DeckNo} (x : Flight) {r : DeckReply} (line : (p.deck d).line = .online)
    (remote : r.isLocal = false) :
    p.goodReply d x r = (p.replyMeasured d x r).deckReported d x.frame r.refused r.label := by
  simp [Part.goodReply_eq, line, remote]

/-- What the EDS finds where it hears of a good reply: roles and timing as they were, the deck with the reply's transport. -/
theorem Part.replyMeasured_found (p : Part) (d : DeckNo) (x : Flight) (r : DeckReply) :
    let m := p.replyMeasured d x r
    m.rtu = p.rtu ∧ m.counting = p.counting ∧ (∀ y, (m.deck y).role = (p.deck y).role)
    ∧ (m.deck d).transport = r.transport := by
  have steers : ((p.replyTold d x r).replyRecorded d r.label r.source x.field).Steers (p.replyMeasured d x r) :=
    Part.deckMeasurement_steers (p.replyTold d x r) d r.label r.source x.field
  have told (y : DeckNo) : (((p.replyTold d x r).replyRecorded d r.label r.source x.field).deck y).role
      = (p.deck y).role := by
    rw [← p.replyTold_role d x r y, Part.replyRecorded]
    by_cases same : y = d
    · subst same
      rw [Part.modDeck_deck_self]
    · rw [Part.modDeck_deck_ne _ _ same]
  have transport := steers.deck d
  rw [Part.replyRecorded, Part.modDeck_deck_self, p.replyTold_deck, Deck.replied_eq] at transport
  exact ⟨steers.rtu.trans (p.replyTold_rtu d x r), steers.counting.trans (p.replyTold_counting d x r),
    fun y => (steers.role y).trans (told y), (congrArg Deck.transport transport :)⟩

/-- A good reply of a deck in CUE. -/
theorem deckReplyGood_cue (s : State) (d : DeckNo) (r : DeckReply) (x : Flight) (n : SlotNo) (e : EventRecord)
    (a : ArmResults) (point : Nat) (c : CueRecord) (flight : (s.part.port d).flight = some x)
    (quiet : (s.part.port d).sending = []) (phase : s.part.eds.phase = .cue) (active : s.part.eds.active = some n)
    (event : (s.part.slot n).event = some e) (arm : (s.part.slot n).arm = some a)
    (cue : a.cueFor d (s.part.deck d).role = some point) (record : s.part.eds.cues.get d = some c)
    (line : (s.part.deck d).line = .online) (remote : r.isLocal = false) :
    ∃ p : Part, exec (.deckReplyGood d r) s = .next { s with part := p }
      ∧ ∃ m : Part, m.CueJudged d n e c point (c.Takes x.frame r.refused point) p
        ∧ m.eds = s.part.eds ∧ m.mep = s.part.mep ∧ m.rtu = s.part.rtu
        ∧ (∀ y, m.inActiveEvent y = s.part.inActiveEvent y)
        ∧ (m.Parked d ↔ r.transport = .still ∧ (p.deck d).position.valid = true)
        ∧ (m.NearCue d point ↔
            (((p.deck d).position.position / 2 : Nat) - point : Int) % s.part.counting.dayFrames ≤ (p.deck d).params.tolerance
            ∨ (-(((p.deck d).position.position / 2 : Nat) - point : Int)) % s.part.counting.dayFrames
                ≤ (p.deck d).params.tolerance) := by
  have receiving : (s.part.port d).receiving = some x := (if_pos quiet).trans flight
  have leads : exec (.deckReplyGood d r) s = .next { s with part := s.part.goodReply d x r } := by
    show execDeckReplyGood d r s = _
    rw [execDeckReplyGood, receiving]
    rfl
  let m := s.part.replyMeasured d x r
  obtain ⟨eds, mep⟩ : m.eds = s.part.eds ∧ m.mep = s.part.mep :=
    Part.replyMeasured_engine (by rw [phase]; rfl) d x r
  obtain ⟨rtu, counting, role, transport⟩ := s.part.replyMeasured_found d x r
  have events : m.activeEvent = some e := by
    rw [Part.activeEvent_congr eds, Part.activeEvent, active]
    exact event
  have arms : m.activeArm = some a := by
    rw [Part.activeArm, eds, active]
    show (m.eds.slots.get n).arm = some a
    rw [eds]
    exact arm
  have cues : m.cuePoint a d = some point := by rw [m.cuePoint_eq, role, cue]
  have judged := Part.deckReported_cueJudged (eds ▸ phase) (eds ▸ active) events arms cues (eds ▸ record) x.frame r.refused
    r.label
  have steers := (Part.Steers.refl m).deckReported d x.frame r.refused r.label
  refine ⟨_, leads, m, ?_⟩
  rw [Part.goodReply_online x line remote]
  refine ⟨judged, eds, mep, rtu, fun y => Part.inActiveEvent_congr eds (role y), ?_, ?_⟩
  · rw [steers.position d, ← transport]
    exact Iff.rfl
  · rw [steers.position d, steers.params d, Part.NearCue, frameDistance_le, counting]

/-- Settles O49: the cue judgement, PLAY falling due in ROLL, and the end of the postroll. -/
theorem rollAndPostroll : Obligations.RollAndPostroll := by
  refine ⟨fun s d r x n e a point c flight quiet phase active event arm recorder player record line remote => ?cue,
    fun s d phase event field => ?roll, fun s n phase count active => ?postroll⟩
  case cue =>
    have cue : a.cueFor d (s.part.deck d).role = some point := by
      unfold ArmResults.cueFor
      split
      · next role => rw [recorder role]
      · next role => exact player role
    obtain ⟨p, runs, m, judged, eds, mep, rtu, joins, parked, near⟩ :=
      deckReplyGood_cue s d r x n e a point c flight quiet phase active event arm cue record line remote
    obtain ⟨untaken, waits, reaches, leaves, recues, fails⟩ := judged
    simp only [Part.LastToReach, Part.LeftCue, Part.Recorded, parked, near, eds, mep, rtu, joins]
      at untaken waits reaches leaves recues fails
    exact ⟨p, runs, untaken, waits, reaches, leaves, recues, fails⟩
  case roll =>
    have due := (s.part.playDue_iff d).2 ⟨phase, event, field⟩
    refine ⟨fun role => ?_, fun a frame role arm inPoint => ?_⟩
    · rw [exec_rollPlayDue, Part.rollPlay_recorder due role]
    · exact ⟨_, exec_rollPlayDue s d, Part.rollPlay_chases due role arm inPoint⟩
  case postroll =>
    have ended := s.part.endPostroll_ended active
    exact ⟨s.part.endPostroll, exec_postrollEnd phase count, ended.state, ended.reason, ended.notice,
      Part.endPostroll_stopped active, Part.endPostroll_past active,
      fun k e go later passed event => Part.endPostroll_next active go later passed event⟩

end Sys2Proof.Machine
end
